-- ==== Sys2Proof/Word.lean ====
section
/-!
DEFINITION. The word types of the ports (spec/12_frame_and_record_layouts.md): bytes and coded field blocks.
Quantities the spec states as ranges (Wh, money, sequences, counts) are `Nat`; only what crosses a line as bits is a bit vector.
-/

namespace Sys2Proof

/-- One byte of the trunk line or of a field block. -/
abbrev Byte := BitVec 8

/-- The bytes of one field block as they cross the air (R187): 9 bytes, or 11 for the last payload block of a frame. -/
abbrev Block := List Byte

/-- The trunk delimiter A5h (R186). -/
def delimiterByte : Byte := 0xA5

/-- The trunk escape 5Ah (R186). -/
def escapeByte : Byte := 0x5A

end Sys2Proof
end

