-- ==== Sys2Proof/Syntax.lean ====
section
/-!
DEFINITION. The commands: one constructor of `Instr` for each row of spec/opcode_table.json, in the table's order.
A row of the Frame Classifier takes no operand: its operands are the bytes of the oldest frame in the receive queue (R72),
which State holds.
-/

namespace Sys2Proof

/-- A header block as it was received: its bytes, fewer than 9 where the carrier ended within it, and whether it began in a data
slot while no reply window was open (R114). -/
structure HeaderBlock where
  bytes : Block
  outside : Bool
  deriving DecidableEq, Repr

/-- The commands of the WC412. Each docstring names the row's rule and its operands. -/
inductive Instr where
  /-- FRAME_BEGIN (R91): the content byte `b` arrives on TRX, after a delimiter. -/
  | frameBegin (b : Byte)
  /-- OVERSIZE_BYTE (R94): the content byte `b` arrives on TRX, the 61st of its frame. -/
  | oversizeByte (b : Byte)
  /-- GAP_EXPIRY (R93): 50 ms have passed without a byte. -/
  | gapExpiry
  /-- FRAME_CLOSE (R95): a delimiter arrives on TRX and closes the frame in reception. -/
  | frameClose
  /-- SET_IDENTITY (R179): the Classifier takes a NODE_CONTROL frame with subcommand 1. -/
  | setIdentity
  /-- SET_CONFIG (R180): the Classifier takes a NODE_CONTROL frame with subcommand 2. -/
  | setConfig
  /-- RESET_NODE (R183): the Classifier takes a NODE_CONTROL frame with subcommand 3. -/
  | resetNode
  /-- SET_CYCLE (R106): the Classifier takes a NODE_CONTROL frame with subcommand 4. -/
  | setCycle
  /-- SET_MODE (R117): the Classifier takes a NODE_CONTROL frame with subcommand 5. -/
  | setMode
  /-- FIELD_RESET (R137): the Classifier takes a NODE_CONTROL frame with subcommand 6. -/
  | fieldReset
  /-- CLEAR_ESCALATION (R171): the Classifier takes a NODE_CONTROL frame with subcommand 7. -/
  | clearEscalation
  /-- SET_ALARM_MASK (R174): the Classifier takes a NODE_CONTROL frame with subcommand 8. -/
  | setAlarmMask
  /-- READ_STATUS (R175): the Classifier takes a NODE_CONTROL frame with subcommand 9. -/
  | readStatus
  /-- LOAD_DISPOSITION (R75): the Classifier takes a frame of that handler. -/
  | loadDisposition
  /-- SET_TIME (R182): the Classifier takes a frame of that handler. -/
  | setTime
  /-- READ_COUNTERS (R156): the Classifier takes a frame of that handler. -/
  | readCounters
  /-- LOAD_PLAN (R26): the Classifier takes a frame of that handler. -/
  | loadPlan
  /-- UNLOAD_PLAN (R28): the Classifier takes a frame of that handler. -/
  | unloadPlan
  /-- READ_PLAN (R29): the Classifier takes a frame of that handler. -/
  | readPlan
  /-- LOAD_ACCOUNT (R14): the Classifier takes a frame of that handler. -/
  | loadAccount
  /-- UNLOAD_ACCOUNT (R16): the Classifier takes a frame of that handler. -/
  | unloadAccount
  /-- SUSPEND (R10): the Classifier takes a SET_ACCOUNT_STATE frame with subcommand 1. -/
  | suspend
  /-- RESUME (R11): the Classifier takes a SET_ACCOUNT_STATE frame with subcommand 2. -/
  | resume
  /-- CLEAR_QUARANTINE (R12): the Classifier takes a SET_ACCOUNT_STATE frame with subcommand 3. -/
  | clearQuarantine
  /-- CHANGE_PLAN (R13): the Classifier takes a SET_ACCOUNT_STATE frame with subcommand 4. -/
  | changePlan
  /-- ADJUST_CREDIT (R40): the Classifier takes a frame of that handler. -/
  | adjustCredit
  /-- APPLY_VOUCHER (R30): the Classifier takes a frame of that handler. -/
  | applyVoucher
  /-- READ_ACCOUNT (R18): the Classifier takes a frame of that handler. -/
  | readAccount
  /-- RELAY_TO_KIT (R67): the Classifier takes a frame of that handler. -/
  | relayToKit
  /-- PROBE_KIT (R159): the Classifier takes a frame of that handler. -/
  | probeKit
  /-- DISCARD (R84): the Classifier takes a frame of that handler. -/
  | discard
  /-- CYCLE_START (R103): the gap ends. `cut` holds the payload blocks received so far of a field frame that the end of the
  last data slot cuts off; it matters only with a gap of 0. -/
  | cycleStart (cut : List Block)
  /-- SLOT_START (R102): the field timer raises a slot start. `cut` as in CYCLE_START, for the slot that ends here. -/
  | slotStart (cut : List Block)
  /-- BEACON_WON (R107): the dominance word completes with no carrier sensed on a recessive bit. -/
  | beaconWon
  /-- BEACON_YIELD (R108): CSENSE shows carrier at bit `bit` of the dominance word, bit 0 sent first. -/
  | beaconYield (bit : Nat)
  /-- KEYING_BEGUN (R46): the Field Port begins keying the downlink frame it was handed. -/
  | keyingBegun
  /-- DOWNLINK_KEYED (R104): the last block of the downlink frame has been keyed. -/
  | downlinkKeyed
  /-- REPLY_WINDOW_CLOSE (R116): the reply window's length has run out. `headerArriving`: a header block has begun in
  the window and is not yet whole. -/
  | replyWindowClose (headerArriving : Bool)
  /-- FIELD_HEADER_BLOCK (R114): a header block has been received. `word` is the dominance word sampled in this contention slot
  (read there alone). -/
  | fieldHeaderBlock (word : BitVec 16) (block : HeaderBlock)
  /-- CARRIER_LOSS_END (R115): carrier absent for more than one block time; `blocks` are the payload blocks received before. -/
  | carrierLossEnd (blocks : List Block)
  /-- FIELD_FRAME_END (R115): the last stated payload block has been received; `blocks` are the payload blocks as received. -/
  | fieldFrameEnd (blocks : List Block)
  /-- CLOCK_SECOND (R181): a second of the retention time base. -/
  | clockSecond
  /-- POWER_UP (R183): a rising edge of PWRGD. -/
  | powerUp
  /-- POWER_FAIL (R183): the main supply fails. -/
  | powerFail
  /-- TRANSMIT_TAKE (R98): the transmitter looks for a record to send; `ready` is the level of modem-ready (MDRDY). -/
  | transmitTake (ready : Bool)
  /-- REPORT_FRAME_SENT (R99): the last byte and the closing delimiter of the report frame have been sent. -/
  | reportFrameSent
  /-- CONTENT_BYTE (R90): the content byte `b` arrives on TRX. -/
  | contentByte (b : Byte)
  /-- DELIMITER (R90): a delimiter arrives on TRX. -/
  | delimiter
  /-- FRAME_TAKEN (R72): the Classifier takes a frame that reaches no named handler or subcommand. -/
  | frameTaken
  /-- GAP_START (R102): the last data slot ends and the gap begins. `cut` as in CYCLE_START. -/
  | gapStart (cut : List Block)
  /-- RETENTION_SUPPLY_LOSS (R183): the retention supply falls below its operating range. -/
  | retentionSupplyLoss
  deriving DecidableEq, Repr

end Sys2Proof
end

