-- ==== Sys2Proof/WellFormed.lean ====
section
/-!
DEFINITION. The well-formed commands: operands that the lines can carry. A content byte is not the delimiter (R90, R186), a
header block has 9 bytes, or fewer where the carrier ended within it, a payload block 9 or 11, and a frame at most 4 payload
blocks (R187); a dominance word has 24 bits (R107). The meanings are total and answer ill-formed commands too.
-/

namespace Sys2Proof

/-- A byte that stands in frame content on the line: any byte but the delimiter (R90). -/
def contentByteOk (b : Byte) : Bool := b != delimiterByte

/-- Payload blocks as the receiver can have received them: at most 4, of 9 or 11 bytes each (R187). -/
def blocksOk (bs : List Block) : Bool :=
  decide (bs.length ≤ 4) && bs.all (fun b => b.length == 9 || b.length == 11)

/-- The well-formedness of a command's operands. -/
def Instr.wf : Instr → Bool
  | .frameBegin b => contentByteOk b
  | .oversizeByte b => contentByteOk b
  | .contentByte b => contentByteOk b
  | .beaconYield bit => decide (bit < 24)
  | .fieldHeaderBlock _ block => decide (block.bytes.length ≤ 9)
  | .carrierLossEnd bs => blocksOk bs
  | .fieldFrameEnd bs => blocksOk bs
  | .cycleStart bs => blocksOk bs
  | .slotStart bs => blocksOk bs
  | .gapStart bs => blocksOk bs
  | .gapExpiry | .frameClose | .setIdentity | .setConfig | .resetNode | .setCycle | .setMode | .fieldReset
  | .clearEscalation | .setAlarmMask | .readStatus | .loadDisposition | .setTime | .readCounters | .loadPlan
  | .unloadPlan | .readPlan | .loadAccount | .unloadAccount | .suspend | .resume | .clearQuarantine | .changePlan
  | .adjustCredit | .applyVoucher | .readAccount | .relayToKit | .probeKit | .discard | .beaconWon | .keyingBegun
  | .downlinkKeyed | .replyWindowClose _ | .clockSecond | .powerUp | .powerFail | .transmitTake _ | .reportFrameSent
  | .delimiter | .frameTaken | .retentionSupplyLoss => true

end Sys2Proof
end

