-- ==== Sys2Proof/Machine/Data.lean ====
section
/-!
DEFINITION. The plain data the blocks hold: accounts, plans, disposition entries, link records, report records and the parts of
the ports. Each structure cites the rule that lays it down. Ranges are stated in the docstrings and held by invariants
(Safety.lean); no field has a function type.
-/

namespace Sys2Proof.Machine

/-! ### Accounts (01, R1) -/

/-- The states of a non-EMPTY account (R4). EMPTY is the absence of a record: an EMPTY record holds no other field (R1). -/
inductive AccountState where
  | loaded | active | locked | suspended | quarantined
  deriving DecidableEq, Repr, Inhabited

/-- The quarantine causes (R8). -/
inductive Cause where
  | regress | overclaim | grantSeq | arrearsLimit
  deriving DecidableEq, Repr, Inhabited

/-- The kit events of a report and of the kit event latch (R1, R61). -/
structure KitEvents where
  tamper : Bool := false
  panelFault : Bool := false
  batteryLow : Bool := false
  overload : Bool := false
  deriving DecidableEq, Repr, Inhabited

/-- One kit event, in the order in which R61 reports them. -/
inductive KitEvent where
  | tamper | panelFault | batteryLow | overload
  deriving DecidableEq, Repr, Inhabited

/-- The voucher window (R19, R20): the highest applied sequence number `h` and the 16 marks. Position `j` (1 to 16) is bit
`16 - j` of `marks`, the order of the IMAGE (bit 15 is position 1). -/
structure Window where
  h : Nat
  marks : BitVec 16
  deriving DecidableEq, Repr, Inhabited

/-- A pending grant (R52): its sequence number, its amount in Wh, whether it has been keyed. -/
structure PendingGrant where
  seq : Nat
  amount : Nat
  sent : Bool
  deriving DecidableEq, Repr, Inhabited

/-- A grant named by sequence number and amount: a withdrawn grant (R53), or the grant of an instruction set (R45). -/
structure Grant where
  seq : Nat
  amount : Nat
  deriving DecidableEq, Repr, Inhabited

/-- A relay payload held for a kit (R67): its bytes, the tag of its frame, its polled-wake count. -/
structure Relay where
  bytes : List Byte
  tag : Nat
  polled : Nat
  deriving DecidableEq, Repr, Inhabited

/-- The record of a non-EMPTY account (R1). Energy is in Wh, the carry in milli-units. -/
structure Account where
  state : AccountState
  kitId : Nat
  plan : Nat
  balance : Nat
  allowance : Nat
  arrears : Nat
  carry : Nat
  periodPurchase : Nat
  periodStart : Nat
  window : Option Window
  q : Nat
  pendingGrant : Option PendingGrant
  withdrawn : Option Grant
  revokeDue : Bool
  lockNoticeDue : Bool
  relay : Option Relay
  baseline : Option Nat
  rebaseDue : Bool
  latch : KitEvents
  cause : Option Cause
  boundOnce : Bool
  deriving DecidableEq, Repr, Inhabited

/-! ### Plans (02, R25) -/

/-- A present plan (R25). `prices` holds P1 to Pn and `ceilings` C1 to Cn-1, so the tier count n is the length of `prices`. -/
structure Plan where
  fee : Nat
  prices : List Nat
  ceilings : List Nat
  creditCeiling : Nat
  periodLength : Nat
  dose : Nat
  lowWater : Nat
  boostLimit : Nat
  arrearsLimit : Nat
  usageStep : Nat
  useCount : Nat
  deriving DecidableEq, Repr, Inhabited

/-! ### The Disposition Table (04, R73) -/

/-- The 16 handlers, in the order of their codes 0 to 15 (R73). -/
inductive Handler where
  | nodeControl | loadDisposition | setTime | readCounters | loadPlan | unloadPlan | loadAccount | unloadAccount
  | setAccountState | adjustCredit | applyVoucher | readAccount | relayToKit | probeKit | readPlan | discard
  deriving DecidableEq, Repr, Inhabited

/-- Which receipts and refusals of a class are reported (R88). -/
inductive ReportMode where
  | all | refusalsOnly | silent
  deriving DecidableEq, Repr, Inhabited

/-- A present Disposition Table entry (R73). An absent entry holds nothing. -/
structure Entry where
  handler : Handler
  ceiling : Nat
  mode : ReportMode
  fixed : Bool
  deriving DecidableEq, Repr, Inhabited

/-! ### Field port parameters and modes (06) -/

/-- The port modes (R117). -/
inductive Mode where
  | run | drain | quiet
  deriving DecidableEq, Repr, Inhabited

/-- The four cycle parameters (R105), in ms, slots, s and ms. -/
structure CycleParams where
  slotLength : Nat
  contentionCount : Nat
  gap : Nat
  replyWindow : Nat
  deriving DecidableEq, Repr, Inhabited

/-- The node configuration (R180). -/
structure NodeConfig where
  defaultExponent : Nat
  silenceLimit : Nat
  bringupLimit : Nat
  yieldLimit : Nat
  deriving DecidableEq, Repr, Inhabited

/-- The district clock (R181). -/
structure Clock where
  isSet : Bool
  day : Nat
  second : Nat
  deriving DecidableEq, Repr, Inhabited

/-! ### Link records (07, 08, 09) -/

/-- The outcome of a polled wake (R131). -/
inductive WakeOutcome where
  | hit | miss
  deriving DecidableEq, Repr, Inhabited

/-- A placement (R122): phase, data slot and interval exponent. -/
structure Placement where
  phase : Nat
  slot : Nat
  exponent : Nat
  deriving DecidableEq, Repr, Inhabited

/-- The sub-states of BRINGUP (R125). -/
inductive Substate where
  | invited | page2 | offered | confirmed
  deriving DecidableEq, Repr, Inhabited

/-- The link states (R125). -/
inductive LinkState where
  | absent
  | bringup (sub : Substate)
  | bound
  | silent
  deriving DecidableEq, Repr, Inhabited

/-- The confirmed figures of a link (R139). -/
structure Figures where
  meterClass : Nat
  firmware : Nat
  maxGrant : Nat
  minExponent : Nat
  maxExponent : Nat
  deriving DecidableEq, Repr, Inhabited

/-- The retained part of a link record (R125, R138, R139; 11 section 11.3). -/
structure LinkRetained where
  state : LinkState := .absent
  kitId : Option Nat := none
  placement : Option Placement := none
  history : List WakeOutcome := []
  misses : Nat := 0
  figures : Option Figures := none
  deriving DecidableEq, Repr, Inhabited

/-- The bring-up progress of a queued kit (R139). -/
inductive Progress where
  | waiting | invited | page2 | offered | confirmed | declining
  deriving DecidableEq, Repr, Inhabited

/-- Why a bring-up fails (R150). -/
inductive FailCause where
  | calendarFull | consistency | timeout | accountState
  deriving DecidableEq, Repr, Inhabited

/-- ABILITY page 1 as held (R142). -/
structure Page1 where
  kitId : Nat
  figures : Figures
  nextPage : Bool
  meter : Nat
  applied : Nat
  remaining : Nat
  overtaken : Bool
  deriving DecidableEq, Repr, Inhabited

/-- ABILITY page 2 as held (R142). -/
structure Page2 where
  events : KitEvents
  preferred : Nat
  deriving DecidableEq, Repr, Inhabited

/-- A held probe (R159). -/
structure Probe where
  seed : Nat
  forced : Nat
  tag : Nat
  deriving DecidableEq, Repr, Inhabited

/-- The volatile part of a link record: the bring-up part (R139), the report-taken flag (R125), the held probe (R159) and the
per-kit counters (R154). -/
structure LinkVolatile where
  progress : Option Progress := none
  page1 : Option Page1 := none
  page2 : Option Page2 := none
  mismatches : Nat := 0
  declineCause : Option FailCause := none
  declineAge : Nat := 0
  reportTaken : Bool := false
  probe : Option Probe := none
  goodFrames : Nat := 0
  missedWakes : Nat := 0
  failedFrames : Nat := 0
  correctedBlocks : Nat := 0
  deriving DecidableEq, Repr, Inhabited

/-- A Caller Queue entry (R135). -/
structure Caller where
  kitId : Nat
  slot : Nat
  urgency : Nat
  arrival : Nat
  startCycle : Option Nat
  mark : Bool
  deriving DecidableEq, Repr, Inhabited

/-- The instruction set of one POLL (R45). -/
structure InstructionSet where
  grant : Option Grant := none
  revoke : Bool := false
  lockNotice : Bool := false
  relay : Option Relay := none
  deriving DecidableEq, Repr, Inhabited

/-- What the exchange of a data slot asks for. -/
inductive ExchangeKind where
  /-- A POLL and the carried set it was built from (R45, R127). -/
  | poll (carried : InstructionSet)
  /-- A PROBE (R127). The probe is `none` once it has been dropped during the slot (R164). -/
  | probe (p : Option Probe)
  /-- INVITE for page 1 or page 2 (R140). -/
  | invite (page : Nat)
  /-- OFFER (R144). -/
  | offer
  /-- DECLINE, whose reply window is not used (R151). -/
  | decline
  deriving DecidableEq, Repr, Inhabited

/-- The Link Controller's record of the exchange in the current data slot (07 section 7.2). -/
structure Exchange where
  kind : ExchangeKind
  slot : Nat
  kitId : Nat
  deriving DecidableEq, Repr, Inhabited

/-! ### The retention domain (11 section 11.3) -/

/-- The state that survives a warm start. -/
structure Retained where
  accounts : Vector (Option Account) 384
  plans : Vector (Option Plan) 16
  entries : Vector (Option Entry) 64
  limit : Nat
  calendar : Vector (Option Nat) 1536
  links : Vector LinkRetained 384
  clock : Clock
  nodeId : Nat
  rank : Nat
  config : NodeConfig
  requested : Mode
  active : CycleParams
  deriving DecidableEq, Repr, Inhabited

/-! ### Alarms and tallies (10) -/

/-- The nine alarm causes, in the order of R172. -/
inductive AlarmCause where
  | reportLoss | escalated | yieldLimit | trunkCheck | callerOverflow | quarantine | clockUnset | warmRestart | coldRestart
  deriving DecidableEq, Repr, Inhabited

/-- Nine flags, one for each cause, from REPORT_LOSS at bit 8 to COLD_RESTART at bit 0 (12, NODE_CONTROL argument table). -/
abbrev AlarmFlags := BitVec 9

/-- The five tally groups (R168), in the order of the tally mask. -/
inductive TallyGroup where
  | receipt | refusal | reply | other | advisory
  deriving DecidableEq, Repr, Inhabited

/-- The lost-report tallies (R168). -/
structure Tallies where
  receipt : Nat := 0
  refusal : Nat := 0
  reply : Nat := 0
  other : Nat := 0
  advisory : Nat := 0
  deriving DecidableEq, Repr, Inhabited

/-- The node counter set (R155), in its table's order. -/
structure NodeCounters where
  trunkCheck : Nat := 0
  gap : Nat := 0
  oversize : Nat := 0
  overrun : Nat := 0
  foreignTrunk : Nat := 0
  headerFails : Nat := 0
  contentionCollisions : Nat := 0
  foreignField : Nat := 0
  shortFrames : Nat := 0
  yieldedCycles : Nat := 0
  callsDropped : Nat := 0
  unknownCalls : Nat := 0
  deriving DecidableEq, Repr, Inhabited

/-! ### Report records (10, 12) -/

/-- The check stages (R77). -/
inductive Stage where
  | header | disposition | authority | target | content
  deriving DecidableEq, Repr, Inhabited

/-- The refusal reasons, by stage (12, refusal record payload). -/
inductive Reason where
  -- HEADER
  | headerLength | slotRange
  -- DISPOSITION
  | noDisposition
  -- AUTHORITY carries no reason (R80)
  | noReason
  -- TARGET
  | slotKind | broadcastAccount | accountPresent | accountEmpty | noKitId | kitMismatch
  -- CONTENT
  | length | classRange | fixedEntry | entryFields | controlCeiling | limitRange | kitId | noPlan | duplicateKit
  | balanceArrears | ceiling | subcommand | state | planNumber | planFields | planInUse | amountRange | quarantined
  | duplicate | stale | feeShort | relayLength | relayBusy | relayExpired | unloaded | cycleFields | modeCode | linkState
  | probeBusy | probeFields | holderOccupied | timeRange | timeRegress | authorityForce | identityRange
  | identityBroadcast | configFields | resetKind
  deriving DecidableEq, Repr, Inhabited

/-- The table a refusal names (R85). -/
inductive TableId where
  | none | disposition | account | plan
  deriving DecidableEq, Repr, Inhabited

/-- The account figures of a refusal (R85): B, G, R, and h unless the window is absent. -/
structure AccountFigures where
  balance : Nat
  allowance : Nat
  arrears : Nat
  h : Option Nat
  deriving DecidableEq, Repr, Inhabited

/-- The body of a REFUSAL (R85). The class is absent in a deferred refusal. -/
structure RefusalBody where
  stage : Stage
  reason : Reason
  table : TableId
  index : Nat
  cls : Option Nat
  figures : Option AccountFigures
  deriving DecidableEq, Repr, Inhabited

/-- The SET_ACCOUNT_STATE subcommands (R9). -/
inductive AccountCommand where
  | suspend | resume | clearQuarantine | changePlan
  deriving DecidableEq, Repr, Inhabited

/-- The RECEIPT of an applied voucher (R38). -/
structure VoucherReceipt where
  kitId : Nat
  s : Nat
  amount : Nat
  fee : Nat
  tierCredits : List Nat
  credit : Nat
  pay : Nat
  balance : Nat
  arrears : Nat
  carry : Nat
  periodPurchase : Nat
  rolled : Bool
  h : Nat
  state : AccountState
  deriving DecidableEq, Repr, Inhabited

/-- The RECEIPT of an applied adjustment (R43). `delta` is the signed delta of the frame. -/
structure AdjustReceipt where
  kitId : Nat
  delta : Int
  forgiven : Nat
  added : Nat
  removed : Nat
  paid : Nat
  balance : Nat
  allowance : Nat
  arrears : Nat
  state : AccountState
  deriving DecidableEq, Repr, Inhabited

/-- The bodies of RECEIPT records (12, report payloads), one for each handler or subcommand that makes one. -/
inductive ReceiptBody where
  | loadDisposition (cls : Nat) (entry : Option Entry) (limit : Nat)
  | setTime (wasSet : Bool) (dayBefore secondBefore day second : Nat) (forced : Bool)
  | loadPlan (plan : Nat) (newly : Bool) (useCount creditCeiling : Nat)
  | unloadPlan (plan : Nat)
  | loadAccount (kitId plan balance arrears : Nat) (h : Option Nat)
  | setAccountState (cmd : AccountCommand) (before after : AccountState) (balance allowance arrears q plan : Nat)
      (h : Option Nat)
  | adjustCredit (r : AdjustReceipt)
  | applyVoucher (r : VoucherReceipt)
  | relayToKit (length : Nat)
  | probeKit (seed forced : Nat)
  | discard (cls length : Nat)
  | setIdentity (nodeId rank idInEffect rankInEffect : Nat)
  | setConfig (c : NodeConfig)
  | setCycle (p : CycleParams) (cycle : Nat)
  | setMode (requested effective : Mode)
  | fieldReset (bringups silenced probes : Nat)
  | clearEscalation (wasSet : Bool)
  | setAlarmMask (mask : AlarmFlags)
  deriving DecidableEq, Repr, Inhabited

/-- The causes of a NOTICE (12, enumerated fields), with their values. -/
inductive NoticeBody where
  | balanceClamped (excess : Nat)
  | adjustClamped (requested removed : Nat)
  | arrearsClamped (notBooked : Nat)
  | usageJump (distance step : Nat)
  | allowanceDrift (drift : Nat)
  | cause (c : Cause)
  deriving DecidableEq, Repr, Inhabited

/-- The LINK advisories (12). -/
inductive LinkBody where
  | bound (p : Placement) (cycles : Nat)
  | silent (misses : Nat)
  | resumed (misses : Nat)
  | bringupFailed (cause : FailCause) (reached : Progress) (mismatches : Nat)
  deriving DecidableEq, Repr, Inhabited

/-- The results of a probe (R164). The counts and the mismatch figures are absent for NO_ECHO. -/
inductive ProbeOutcome where
  | pass (kitCount nodeCount : Nat)
  | decodeMismatch (kitCount nodeCount : Nat)
  | patternMismatch (kitCount nodeCount differing first : Nat)
  | noEcho
  deriving DecidableEq, Repr, Inhabited

/-- The kind of a start (R183). -/
inductive StartKind where
  | cold | warm
  deriving DecidableEq, Repr, Inhabited

/-- The cause of a start (R185). -/
inductive StartCause where
  | power | command
  deriving DecidableEq, Repr, Inhabited

/-- The body of a RESTART (R185). -/
structure RestartBody where
  kind : StartKind
  cause : StartCause
  nodeId : Nat
  rank : Nat
  clock : Clock
  requested : Mode
  accounts : Nat
  plans : Nat
  silenced : Nat
  abandoned : Nat
  deriving DecidableEq, Repr, Inhabited

/-- The outcome of a contended cycle in the yield history (R109). -/
inductive YieldOutcome where
  | won | yielded
  deriving DecidableEq, Repr, Inhabited

/-- The body of a NODE_STATUS (R175). -/
structure StatusBody where
  nodeId : Nat
  rank : Nat
  alarms : AlarmFlags
  mask : AlarmFlags
  tallies : Tallies
  escalated : Bool
  holder : Option (Nat × Nat)
  fill : Nat
  requested : Mode
  effective : Mode
  active : CycleParams
  shadow : Option CycleParams
  cycle : Nat
  history : List YieldOutcome
  clock : Clock
  deriving DecidableEq, Repr, Inhabited

/-- The bodies of the report records, by kind (R166). -/
inductive Body where
  | receipt (r : ReceiptBody)
  | refusal (r : RefusalBody)
  | quarantine (kitId : Nat) (cause : Cause) (left : AccountState) (balance allowance arrears q : Nat)
  | image (a : Account) (expired : Bool)
  | planImage (number : Nat) (plan : Option Plan)
  | nodeCounters (c : NodeCounters) (cycle : Nat)
  | linkCounters (kitId : Nat) (link : LinkRetained) (vol : LinkVolatile)
  | nodeStatus (b : StatusBody)
  | probeResult (kitId : Nat) (p : Probe) (result : ProbeOutcome) (cycle : Nat)
  | restart (b : RestartBody)
  | notice (n : NoticeBody)
  | link (kitId : Nat) (b : LinkBody)
  | kitEvent (kitId : Nat) (e : KitEvent)
  | unknownKit (kitId urgency : Nat)
  | relayDone
  | alarm (c : AlarmCause) (cycle : Nat) (clock : Clock)
  deriving DecidableEq, Repr, Inhabited

/-- A report record: the tag and slot index of its header (R99) and its body. -/
structure Report where
  tag : Nat
  slot : Nat
  body : Body
  deriving DecidableEq, Repr, Inhabited

/-! ### The ports -/

/-- A receive queue entry (05 section 5.2): 8 header bytes and the payload bytes as received; the count received is their
number. -/
structure RxFrame where
  header : List Byte
  payload : List Byte
  deriving DecidableEq, Repr, Inhabited

/-- A trunk frame in reception (R90): the content bytes so far after escapes are removed, the count toward the 60-byte limit,
whether an escape byte waits for its pair, and whether an escape error has been met. -/
structure Reception where
  content : List Byte
  count : Nat
  escaped : Bool
  broken : Bool
  deriving DecidableEq, Repr, Inhabited

/-- The receiver's states (R90). RECEIVE stands for one reserved receive queue entry (R91). -/
inductive Receiver where
  | hunt
  | open
  | receive (r : Reception)
  | discard
  deriving DecidableEq, Repr, Inhabited

/-- The transmitter (R98): while SENDING it holds the record in transmission and the bytes of its frame (R99). -/
inductive Transmitter where
  | idle
  | sending (r : Report) (wire : List Byte)
  deriving DecidableEq, Repr, Inhabited

/-- The status of a cycle (R108), pending until the beacon slot fixes it (R102). -/
inductive CycleStatus where
  | pending | claimed | yielded | unclaimed
  deriving DecidableEq, Repr, Inhabited

/-- Where the field timer stands (R102). -/
inductive Place where
  /-- A start has completed; the first cycle start comes next (R184). -/
  | started
  /-- The cycle start has been taken; the beacon slot's start comes next. -/
  | cycleBegun
  | beacon
  | contention (n : Nat)
  | data (n : Nat)
  | gap
  deriving DecidableEq, Repr, Inhabited

/-- The kinds of the node's field frames (12, header block). -/
inductive DownKind where
  | beacon | poll | probe | invite | offer | decline
  deriving DecidableEq, Repr, Inhabited

/-- The kinds of the kits' field frames (12, header block). -/
inductive UpKind where
  | call | report | ability | confirm | echo
  deriving DecidableEq, Repr, Inhabited

/-- A downlink frame as handed to the Field Port (R104). `planted` holds the seed and count of a probe's forced errors (R161). -/
structure DownFrame where
  kind : DownKind
  address : Nat
  reportTaken : Bool
  payload : List Byte
  planted : Option (Nat × Nat)
  deriving DecidableEq, Repr, Inhabited

/-- What the node keys: nothing, the dominance word of the beacon arbitration (R107), a frame handed over whose keying has not
begun, or a frame being keyed with its coded blocks (R112). -/
inductive Downlink where
  | silent
  | dominance (word : BitVec 24)
  | handed (f : DownFrame)
  | keying (f : DownFrame) (air : List Block)
  deriving DecidableEq, Repr, Inhabited

/-- The reply window (R104). `lateHeader`: the window has run out while a header block begun in it was still arriving. -/
inductive ReplyWindow where
  | closed | open | lateHeader
  deriving DecidableEq, Repr, Inhabited

/-- A field frame in reception after its header passed the tests of R114. -/
structure FieldReception where
  kind : UpKind
  address : Nat
  blockCount : Nat
  flags : Byte
  corrected : Bool
  word : BitVec 16
  deriving DecidableEq, Repr, Inhabited

/-- An arrival record (R115). `header good` is always set, so it has no field. -/
structure Arrival where
  kind : UpKind
  address : Nat
  payload : Option (List Byte)
  corrected : Nat
  first : Bool
  flags : Byte
  deriving DecidableEq, Repr, Inhabited

end Sys2Proof.Machine
end

