-- ==== Sys2Proof/Config.lean ====
section
/-!
DEFINITION. What the spec leaves open: free values, opaque constants with no body. No proof can see their values, so a statement
that holds of the model holds whatever they are. Log entries 7 and 19 to 21.
-/

namespace Sys2Proof.Machine

/-- What the retention domain holds after the retention supply was lost for the `n`-th time (R183): its contents "are then
lost", and the spec does not say what is read in their place. Log entry 7. -/
opaque Config.lostRetention (n : Nat) : Retained

/-- The allowance after a grant of `g` Wh is applied to an allowance `G` with G + g above 16,777,215: the spec states no sum
outside the field's range. Its reduction into the range stands where it is used. Log entry 19. -/
opaque Config.allowanceOverflow (G g : Nat) : Nat

/-- What a field of `width` bytes carries for a value that does not fit it. Log entry 20. -/
opaque Config.fieldOverflow (width value : Nat) : Nat

/-- The cycle number in the PROBE_RESULT of a probe dropped outside its wake, in cycle `cycle`: R164 names the cycle of the
probe wake, and there was none. Log entry 21. -/
opaque Config.droppedProbeCycle (cycle : Nat) : Nat

end Sys2Proof.Machine
end

