-- ==== Sys2Proof/Machine/State.lean ====
section
/-!
DEFINITION. The machine's state as plain data, block by block, the reasons a step can stop, and the state after reset.
-/

namespace Sys2Proof.Machine

/-- The Trunk Port's volatile state (R90, R91, R98, R101). -/
structure TrunkPort where
  receiver : Receiver := .hunt
  queue : List RxFrame := []
  transmitter : Transmitter := .idle
  deriving DecidableEq, Repr, Inhabited

/-- The Report Unit's volatile state (R165 to R177). -/
structure ReportUnit where
  queue : List Report := []
  holder : Option Report := none
  tallies : Tallies := {}
  alarms : AlarmFlags := 0
  mask : AlarmFlags := 0x1ff
  escalated : Bool := false
  deriving DecidableEq, Repr, Inhabited

/-- The Link Controller's volatile state (R125, R135, R138, R139, R154, R159). -/
structure LinkControl where
  links : Vector LinkVolatile 384 := Vector.replicate 384 {}
  callers : List Caller := []
  nextArrival : Nat := 0
  exchange : Option Exchange := none
  deriving DecidableEq, Repr, Inhabited

/-- The Field Port's volatile state (R103 to R121) with the identity in effect (R179). `cycleDay` is the district day taken at
the cycle start (R110), `callsOpen` the flag of this cycle's beacon, `recordMade` whether an arrival record has been made in the
current reply window (R115), `quieted` whether a slot of this CLAIMED cycle has started under QUIET (R120). -/
structure FieldPort where
  shadow : Option CycleParams := none
  effective : Mode := .quiet
  idInEffect : Nat := 0
  rankInEffect : Nat := 255
  cycle : Nat := 65535
  cycleDay : Nat := 0
  status : CycleStatus := .pending
  history : List YieldOutcome := []
  callsOpen : Bool := false
  place : Place := .started
  downlink : Downlink := .silent
  window : ReplyWindow := .closed
  recordMade : Bool := false
  quieted : Bool := false
  reception : Option FieldReception := none
  deriving DecidableEq, Repr, Inhabited

/-- The WC412. `ret` is the retention domain (11 section 11.3); `tp`, `ru`, `lc`, `fp` and `counters` are volatile. `pending`
is the queue of waiting commands and `freeCount` counts the free values drawn: both are the model's own. -/
structure State where
  powered : Bool
  retentionValid : Bool
  ret : Retained
  tp : TrunkPort
  ru : ReportUnit
  lc : LinkControl
  fp : FieldPort
  counters : NodeCounters
  pending : List Instr
  freeCount : Nat
  deriving DecidableEq, Repr, Inhabited

/-- Why the machine stops. The spec gives no event that stops the block, so there is no reason: the type is empty. -/
inductive Fault where
  deriving DecidableEq, Repr

/-- Why a command is turned away. -/
inductive Refusal where
  /-- Raised by an arm of exec that has no meaning yet; no arm raises it. Safe: the model stops where the hardware goes on. -/
  | notModelled (mnemonic : String)
  deriving DecidableEq, Repr

/-- The default image of the Disposition Table (R74): classes 0 to 15 name the handlers of codes 0 to 15, the rest are absent. -/
def defaultEntries : Vector (Option Entry) 64 :=
  let e (h : Handler) (c : Nat) (fixed : Bool := false) : Option Entry := some ⟨h, c, .all, fixed⟩
  ⟨⟨[e .nodeControl 0 true, e .loadDisposition 0 true, e .setTime 0 true, e .readCounters 1 true,
     e .loadPlan 0, e .unloadPlan 0, e .loadAccount 0, e .unloadAccount 0,
     e .setAccountState 0, e .adjustCredit 0, e .applyVoucher 1, e .readAccount 2,
     e .relayToKit 1, e .probeKit 1, e .readPlan 2, some ⟨.discard, 3, .silent, false⟩]
    ++ List.replicate 48 none⟩, by rfl⟩

/-- The cold values of the retention domain (R184, with R23, R25, R74, R105, R117, R138, R179, R180, R181). -/
def Retained.cold : Retained where
  accounts := Vector.replicate 384 none
  plans := Vector.replicate 16 none
  entries := defaultEntries
  limit := 16
  calendar := Vector.replicate 1536 none
  links := Vector.replicate 384 {}
  clock := ⟨false, 0, 0⟩
  nodeId := 0
  rank := 255
  config := ⟨4, 12, 32, 4⟩
  requested := .quiet
  active := ⟨500, 6, 40, 200⟩

/-- What a cold start at power-up leaves in the Report Unit (R177, R184, R185): the RESTART, then the ALARM records of
COLD_RESTART and CLOCK_UNSET, both causes set. The cycle number still holds 65,535 (R103). -/
def ReportUnit.afterColdStart : ReportUnit where
  queue :=
    [⟨0, 0, .restart ⟨.cold, .power, 0, 255, ⟨false, 0, 0⟩, .quiet, 0, 0, 0, 0⟩⟩,
     ⟨0, 0, .alarm .coldRestart 65535 ⟨false, 0, 0⟩⟩,
     ⟨0, 0, .alarm .clockUnset 65535 ⟨false, 0, 0⟩⟩]
  alarms := 0b101

/-- The machine right after a cold start at power-up (R184). -/
def State.reset : State where
  powered := true
  retentionValid := true
  ret := Retained.cold
  tp := {}
  ru := ReportUnit.afterColdStart
  lc := {}
  fp := {}
  counters := {}
  pending := []
  freeCount := 0

end Sys2Proof.Machine
end

