-- ==== Sys2Proof/Machine/Ops.lean ====
section
/-!
DEFINITION. The named operations over the state: reading and writing the tables, saturating counters, the Report Unit's
admission, the alarm summary, and the returns to the balance. Every block reaches the tables and the Report Unit through these.
-/

namespace Sys2Proof.Machine

/-! ### Ranges -/

/-- The top of the balance, the allowance and the period purchase (R1): 16,777,215 Wh. -/
def maxWh : Nat := 16777215

/-- The top of the arrears (R1): 65,535 Wh. -/
def maxArrears : Nat := 65535

/-- One more, saturating at `top` (00 section 6: counters and tallies saturate). -/
def satInc (top n : Nat) : Nat := min (n + 1) top

/-- The position of slot index 1 to 384 in a table; any other index is outside it (R1, R125). -/
def slotPos (slot : Nat) : Nat := if slot = 0 then 384 else slot - 1

/-! ### Tables -/

/-- The account record at a slot index; `none` is EMPTY (R1). -/
def State.account (s : State) (slot : Nat) : Option Account := (s.ret.accounts[slotPos slot]?).join

/-- The state with the account record at a slot index replaced whole (R24). -/
def State.setAccount (s : State) (slot : Nat) (a : Option Account) : State :=
  { s with ret := { s.ret with accounts := s.ret.accounts.setIfInBounds (slotPos slot) a } }

/-- The plan record of a number; `none` is absent (R25). -/
def State.plan (s : State) (n : Nat) : Option Plan := (s.ret.plans[n]?).join

/-- The state with one plan record replaced whole (R25). -/
def State.setPlan (s : State) (n : Nat) (p : Option Plan) : State :=
  { s with ret := { s.ret with plans := s.ret.plans.setIfInBounds n p } }

/-- A plan's use count moved by `f`, if the plan is present (R22). -/
def State.mapUseCount (s : State) (n : Nat) (f : Nat → Nat) : State :=
  s.setPlan n ((s.plan n).map fun p => { p with useCount := f p.useCount })

/-- The Disposition Table entry of a class (R73). -/
def State.entry (s : State) (cls : Nat) : Option Entry := (s.ret.entries[cls]?).join

/-- The state with one Disposition Table entry replaced whole (R76). -/
def State.setEntry (s : State) (cls : Nat) (e : Option Entry) : State :=
  { s with ret := { s.ret with entries := s.ret.entries.setIfInBounds cls e } }

/-- The retained part of the link record at a slot index (R125). -/
def State.link (s : State) (slot : Nat) : LinkRetained := (s.ret.links[slotPos slot]?).getD {}

/-- The state with the retained part of a link record replaced. -/
def State.setLink (s : State) (slot : Nat) (l : LinkRetained) : State :=
  { s with ret := { s.ret with links := s.ret.links.setIfInBounds (slotPos slot) l } }

/-- The retained part of a link record changed by `f`. -/
def State.mapLink (s : State) (slot : Nat) (f : LinkRetained → LinkRetained) : State := s.setLink slot (f (s.link slot))

/-- The volatile part of the link record at a slot index (R139, R154, R159). -/
def State.linkVol (s : State) (slot : Nat) : LinkVolatile := (s.lc.links[slotPos slot]?).getD {}

/-- The state with the volatile part of a link record replaced. -/
def State.setLinkVol (s : State) (slot : Nat) (l : LinkVolatile) : State :=
  { s with lc := { s.lc with links := s.lc.links.setIfInBounds (slotPos slot) l } }

/-- The volatile part of a link record changed by `f`. -/
def State.mapLinkVol (s : State) (slot : Nat) (f : LinkVolatile → LinkVolatile) : State :=
  s.setLinkVol slot (f (s.linkVol slot))

/-- The slot indices of the tables, in order. -/
def slotIndices : List Nat := List.range' 1 384

/-- The slot index of the non-EMPTY account that holds a kit id; kit ids are unique, so at most one does (R2, R134). -/
def State.slotOfKit (s : State) (kitId : Nat) : Option Nat :=
  slotIndices.find? fun slot => match s.account slot with
    | some a => a.kitId == kitId
    | none => false

/-! ### Node counters -/

/-- The names of the twelve node counters (R155). -/
inductive CounterName where
  | trunkCheck | gap | oversize | overrun | foreignTrunk | headerFails | contentionCollisions | foreignField | shortFrames
  | yieldedCycles | callsDropped | unknownCalls
  deriving DecidableEq, Repr

/-- The value of a node counter. -/
def NodeCounters.get (c : NodeCounters) : CounterName → Nat
  | .trunkCheck => c.trunkCheck
  | .gap => c.gap
  | .oversize => c.oversize
  | .overrun => c.overrun
  | .foreignTrunk => c.foreignTrunk
  | .headerFails => c.headerFails
  | .contentionCollisions => c.contentionCollisions
  | .foreignField => c.foreignField
  | .shortFrames => c.shortFrames
  | .yieldedCycles => c.yieldedCycles
  | .callsDropped => c.callsDropped
  | .unknownCalls => c.unknownCalls

/-- A node counter raised by 1, saturating at 65,535 (R97, R121, R155). -/
def NodeCounters.bump (c : NodeCounters) : CounterName → NodeCounters
  | .trunkCheck => { c with trunkCheck := satInc 65535 c.trunkCheck }
  | .gap => { c with gap := satInc 65535 c.gap }
  | .oversize => { c with oversize := satInc 65535 c.oversize }
  | .overrun => { c with overrun := satInc 65535 c.overrun }
  | .foreignTrunk => { c with foreignTrunk := satInc 65535 c.foreignTrunk }
  | .headerFails => { c with headerFails := satInc 65535 c.headerFails }
  | .contentionCollisions => { c with contentionCollisions := satInc 65535 c.contentionCollisions }
  | .foreignField => { c with foreignField := satInc 65535 c.foreignField }
  | .shortFrames => { c with shortFrames := satInc 65535 c.shortFrames }
  | .yieldedCycles => { c with yieldedCycles := satInc 65535 c.yieldedCycles }
  | .callsDropped => { c with callsDropped := satInc 65535 c.callsDropped }
  | .unknownCalls => { c with unknownCalls := satInc 65535 c.unknownCalls }

/-- The state with one node counter raised. -/
def State.bump (s : State) (n : CounterName) : State := { s with counters := s.counters.bump n }

/-! ### Alarms and tallies -/

/-- The bit of a cause in the nine flags (12): REPORT_LOSS is bit 8, COLD_RESTART bit 0. -/
def AlarmCause.bit : AlarmCause → Nat
  | .reportLoss => 8
  | .escalated => 7
  | .yieldLimit => 6
  | .trunkCheck => 5
  | .callerOverflow => 4
  | .quarantine => 3
  | .clockUnset => 2
  | .warmRestart => 1
  | .coldRestart => 0

/-- Whether a cause's flag is set. -/
def AlarmCause.inFlags (c : AlarmCause) (f : AlarmFlags) : Bool := f.getLsbD c.bit

/-- The flags with a cause's flag set. -/
def AlarmCause.setIn (c : AlarmCause) (f : AlarmFlags) : AlarmFlags := f ||| (1#9 <<< c.bit)

/-- A tally raised by 1, saturating at 255 (R168). -/
def Tallies.bump (t : Tallies) : TallyGroup → Tallies
  | .receipt => { t with receipt := satInc 255 t.receipt }
  | .refusal => { t with refusal := satInc 255 t.refusal }
  | .reply => { t with reply := satInc 255 t.reply }
  | .other => { t with other := satInc 255 t.other }
  | .advisory => { t with advisory := satInc 255 t.advisory }

/-! ### The Report Unit -/

/-- The admission classes (R166). -/
inductive ReportClass where
  | essential | advisory | quarantine
  deriving DecidableEq, Repr

/-- The admission class of a record's kind (R166). -/
def Body.reportClass : Body → ReportClass
  | .receipt _ | .refusal _ | .image _ _ | .planImage _ _ | .nodeCounters _ _ | .linkCounters _ _ _ | .nodeStatus _
  | .probeResult _ _ _ _ | .restart _ => .essential
  | .quarantine _ _ _ _ _ _ _ => .quarantine
  | .notice _ | .link _ _ | .kitEvent _ _ | .unknownKit _ _ | .relayDone | .alarm _ _ _ => .advisory

/-- The tally that counts a record of this kind when it is lost (R166). -/
def Body.group : Body → TallyGroup
  | .receipt _ => .receipt
  | .refusal _ => .refusal
  | .image _ _ | .planImage _ _ | .nodeCounters _ _ | .linkCounters _ _ _ | .nodeStatus _ | .probeResult _ _ _ _ => .reply
  | .restart _ | .quarantine _ _ _ _ _ _ _ => .other
  | .notice _ | .link _ _ | .kitEvent _ _ | .unknownKit _ _ | .relayDone | .alarm _ _ _ => .advisory

/-- The free count of the Report Queue (R165). -/
def State.free (s : State) : Nat := 64 - s.ru.queue.length

/-- The record joins the tail of the Report Queue (R165). -/
def State.enqueue (s : State) (r : Report) : State := { s with ru := { s.ru with queue := s.ru.queue ++ [r] } }

/-- The tally of a group rises by 1 (R168). -/
def State.tally (s : State) (g : TallyGroup) : State := { s with ru := { s.ru with tallies := s.ru.tallies.bump g } }

/-- A cause becomes set in the alarm summary (R172). -/
def State.setAlarm (s : State) (c : AlarmCause) : State := { s with ru := { s.ru with alarms := c.setIn s.ru.alarms } }

/-- The ALARM record of a cause (R173): the cause, the cycle number and the district clock, with tag 0 also where a frame is in hand
(DEDUCED, log entry 22). -/
def State.alarmRecord (s : State) (c : AlarmCause) : Report := ⟨0, 0, .alarm c s.fp.cycle s.ret.clock⟩

/-- Raising REPORT_LOSS (R173). Its own ALARM record, when lost, raises the ADVISORY tally once more and the cause is found
set. -/
def State.raiseReportLoss (s : State) : State :=
  if AlarmCause.reportLoss.inFlags s.ru.alarms then s
  else
    let s := s.setAlarm .reportLoss
    if AlarmCause.reportLoss.inFlags s.ru.mask then
      if 9 ≤ s.free then s.enqueue (s.alarmRecord .reportLoss) else s.tally .advisory
    else s

/-- A record of a group is lost: its tally rises and REPORT_LOSS is raised (R167). -/
def State.lose (s : State) (g : TallyGroup) : State := (s.tally g).raiseReportLoss

/-- The entries that must be free for a class to be admitted (R167). -/
def ReportClass.margin : ReportClass → Nat
  | .advisory => 9
  | .essential | .quarantine => 1

/-- A record other than QUARANTINE is admitted or lost by its class and the free count (R167). -/
def State.handPlain (s : State) (r : Report) : State :=
  if r.body.reportClass.margin ≤ s.free then s.enqueue r else s.lose r.body.group

/-- Raising an alarm cause (R173). -/
def State.raise (s : State) (c : AlarmCause) : State :=
  if c.inFlags s.ru.alarms then s
  else
    let s := s.setAlarm c
    if c.inFlags s.ru.mask then s.handPlain (s.alarmRecord c) else s

/-- A QUARANTINE record is queued, held or lost, and the alarm QUARANTINE is raised after that and before REPORT_LOSS and
ESCALATED (R169, R170). -/
def State.handQuarantine (s : State) (r : Report) : State :=
  if 1 ≤ s.free then (s.enqueue r).raise .quarantine
  else if s.ru.holder.isNone then ({ s with ru := { s.ru with holder := some r } }).raise .quarantine
  else
    let s := (((s.tally .other).raise .quarantine).raiseReportLoss)
    ({ s with ru := { s.ru with escalated := true } }).raise .escalated

/-- A record is handed to the Report Unit (R167, R169). -/
def State.hand (s : State) (r : Report) : State :=
  match r.body.reportClass with
  | .quarantine => s.handQuarantine r
  | .essential | .advisory => s.handPlain r

/-- Records handed over in order (R89). -/
def State.handAll (s : State) (rs : List Report) : State := rs.foldl State.hand s

/-- A RECEIPT is handed over under ALL and suppressed otherwise (R88). -/
def State.handReceipt (s : State) (mode : ReportMode) (tag slot : Nat) (r : ReceiptBody) : State :=
  match mode with
  | .all => s.hand ⟨tag, slot, .receipt r⟩
  | .refusalsOnly | .silent => s

/-! ### Returns to the balance (R3) and credit (R6) -/

/-- A return of `x` Wh to the balance (R3): arrears first, then the balance, clamped with a NOTICE BALANCE_CLAMPED. -/
def Account.returnToBalance (a : Account) (x : Nat) : Account × List NoticeBody :=
  let pay := min x a.arrears
  let b := a.balance + (x - pay)
  if maxWh < b then
    ({ a with arrears := a.arrears - pay, balance := maxWh }, [.balanceClamped (b - maxWh)])
  else ({ a with arrears := a.arrears - pay, balance := b }, [])

/-- Whether an account holds credit (R6). -/
def Account.holdsCredit (a : Account) : Bool :=
  decide (0 < a.balance) || decide (0 < a.allowance) || a.pendingGrant.isSome || a.withdrawn.isSome

/-- One below a sequence number, modulo 256 (R51). -/
def seqPred (q : Nat) : Nat := (q + 255) % 256

/-- One above a sequence number, modulo 256 (R50). -/
def seqSucc (q : Nat) : Nat := (q + 1) % 256

/-- Entry to ACTIVE clears lock notice due (R6). -/
def Account.enterActive (a : Account) : Account := { a with state := .active, lockNoticeDue := false }

/-- Entry to LOCKED sets lock notice due (R6, R66). -/
def Account.enterLocked (a : Account) : Account := { a with state := .locked, lockNoticeDue := true }

/-- The state test after an event applied whole (R6): ACTIVE without credit locks, LOCKED with a balance becomes active. -/
def Account.creditTest (a : Account) : Account :=
  match a.state with
  | .active => if a.holdsCredit then a else a.enterLocked
  | .locked => if 0 < a.balance then a.enterActive else a
  | .loaded | .suspended | .quarantined => a

/-- A pending grant cancelled on entry to SUSPENDED or QUARANTINED (R7, steps 1 and 2): an unsent one is returned and q steps
back, a sent one becomes the withdrawn grant and is returned. -/
def Account.cancelPending (a : Account) : Account × List NoticeBody :=
  match a.pendingGrant with
  | none => (a, [])
  | some g =>
    let (a', ns) := a.returnToBalance g.amount
    if g.sent then ({ a' with pendingGrant := none, withdrawn := some ⟨g.seq, g.amount⟩ }, ns)
    else ({ a' with pendingGrant := none, q := seqPred a.q }, ns)

/-- The effects of entering SUSPENDED or QUARANTINED (R7). -/
def Account.enterHold (a : Account) (st : AccountState) : Account × List NoticeBody :=
  let (a', ns) := a.cancelPending
  ({ a' with state := st, revokeDue := true, lockNoticeDue := true }, ns)

/-- Notices as records for a slot, under a tag. -/
def noticeRecords (tag slot : Nat) (ns : List NoticeBody) : List Report := ns.map fun n => ⟨tag, slot, .notice n⟩

/-- B, G and R of an account with h, as a refusal carries them (R32, R85). -/
def Account.figures (a : Account) : AccountFigures := ⟨a.balance, a.allowance, a.arrears, a.window.map Window.h⟩

end Sys2Proof.Machine
end

