-- ==== Sys2Proof/Machine/Operands.lean ====
section
/-!
DEFINITION. The operands of the commands: fields read at the positions of spec/12_frame_and_record_layouts.md, most significant
byte first, bits shown as 0 not read (R188). A field is read as the whole of its bytes unless the layout names bits (DEDUCED, log entry 16).
-/

namespace Sys2Proof.Machine

/-- Byte `i` of a list, as a number; 0 beyond its end. -/
def byteAt (bs : List Byte) (i : Nat) : Nat := (bs.getD i 0).toNat

/-- The number in bytes, most significant first. -/
def beNat (bs : List Byte) : Nat := bs.foldl (fun acc b => acc * 256 + b.toNat) 0

/-- The `n`-byte number that starts at byte `off`. -/
def field (bs : List Byte) (off n : Nat) : Nat := beNat ((bs.drop off).take n)

/-- Bit `k` of byte `i` (bit 7 most significant). -/
def bitAt (bs : List Byte) (i k : Nat) : Bool := (bs.getD i 0).getLsbD k

/-! ### The trunk frame header (12) -/

/-- The destination (bytes 0 and 1). -/
def RxFrame.destination (f : RxFrame) : Nat := field f.header 0 2

/-- The authority (byte 2, bits 7 and 6). -/
def RxFrame.authority (f : RxFrame) : Nat := byteAt f.header 2 / 64

/-- The class (byte 2, bits 5 to 0). -/
def RxFrame.cls (f : RxFrame) : Nat := byteAt f.header 2 % 64

/-- The tag (bytes 3 and 4). -/
def RxFrame.tag (f : RxFrame) : Nat := field f.header 3 2

/-- The slot index (bit 0 of byte 5, and byte 6). -/
def RxFrame.slot (f : RxFrame) : Nat := byteAt f.header 5 % 2 * 256 + byteAt f.header 6

/-- The payload length field (byte 7, bits 5 to 0). -/
def RxFrame.statedLength (f : RxFrame) : Nat := byteAt f.header 7 % 64

/-- The count of payload bytes received. -/
def RxFrame.count (f : RxFrame) : Nat := f.payload.length

/-- The kit id, the first four payload bytes (R82). -/
def RxFrame.kitId (f : RxFrame) : Nat := field f.payload 0 4

/-- A received frame of the given fields: what the office sends to be read back by the accessors above. -/
def RxFrame.make (destination authority cls tag slot : Nat) (payload : List Byte) : RxFrame where
  header := [BitVec.ofNat 8 (destination / 256), BitVec.ofNat 8 destination, BitVec.ofNat 8 (authority * 64 + cls),
    BitVec.ofNat 8 (tag / 256), BitVec.ofNat 8 tag, BitVec.ofNat 8 (slot / 256), BitVec.ofNat 8 slot,
    BitVec.ofNat 8 payload.length]
  payload := payload

/-! ### Codes of enumerated operands (12) -/

/-- The handler of a code 0 to 15 (R73). -/
def Handler.ofCode : Nat → Option Handler
  | 0 => some .nodeControl
  | 1 => some .loadDisposition
  | 2 => some .setTime
  | 3 => some .readCounters
  | 4 => some .loadPlan
  | 5 => some .unloadPlan
  | 6 => some .loadAccount
  | 7 => some .unloadAccount
  | 8 => some .setAccountState
  | 9 => some .adjustCredit
  | 10 => some .applyVoucher
  | 11 => some .readAccount
  | 12 => some .relayToKit
  | 13 => some .probeKit
  | 14 => some .readPlan
  | 15 => some .discard
  | _ => none

/-- The report mode of a code (12: ALL 1, REFUSALS_ONLY 2, SILENT 3). -/
def ReportMode.ofCode : Nat → Option ReportMode
  | 1 => some .all
  | 2 => some .refusalsOnly
  | 3 => some .silent
  | _ => none

/-- The port mode of a code (12: RUN 1, DRAIN 2, QUIET 3). -/
def Mode.ofCode : Nat → Option Mode
  | 1 => some .run
  | 2 => some .drain
  | 3 => some .quiet
  | _ => none

/-- The start kind of a code (12: COLD 1, WARM 2). -/
def StartKind.ofCode : Nat → Option StartKind
  | 1 => some .cold
  | 2 => some .warm
  | _ => none

/-- The NODE_CONTROL subcommands (R178). -/
inductive NodeCommand where
  | setIdentity | setConfig | resetNode | setCycle | setMode | fieldReset | clearEscalation | setAlarmMask | readStatus
  deriving DecidableEq, Repr

/-- The NODE_CONTROL subcommand of a code (12). -/
def NodeCommand.ofCode : Nat → Option NodeCommand
  | 1 => some .setIdentity
  | 2 => some .setConfig
  | 3 => some .resetNode
  | 4 => some .setCycle
  | 5 => some .setMode
  | 6 => some .fieldReset
  | 7 => some .clearEscalation
  | 8 => some .setAlarmMask
  | 9 => some .readStatus
  | _ => none

/-- The subcommand of a NODE_CONTROL payload: its first byte; none for an empty payload (R178). -/
def RxFrame.nodeCommand (f : RxFrame) : Option NodeCommand :=
  match f.payload with
  | [] => none
  | b :: _ => NodeCommand.ofCode b.toNat

/-- The SET_ACCOUNT_STATE subcommand of a code (12). -/
def AccountCommand.ofCode : Nat → Option AccountCommand
  | 1 => some .suspend
  | 2 => some .resume
  | 3 => some .clearQuarantine
  | 4 => some .changePlan
  | _ => none

/-- The subcommand of a SET_ACCOUNT_STATE payload: the byte after the kit id; none when it is not there. -/
def RxFrame.accountCommand (f : RxFrame) : Option AccountCommand :=
  match f.payload.drop 4 with
  | [] => none
  | b :: _ => AccountCommand.ofCode b.toNat

/-- Kit events in bits 7 to 4 of a byte: TAMPER, PANEL_FAULT, BATTERY_LOW, OVERLOAD (12). -/
def KitEvents.ofByte (b : Byte) : KitEvents := ⟨b.getLsbD 7, b.getLsbD 6, b.getLsbD 5, b.getLsbD 4⟩

/-- The kit's frame kind of a code (12, header block). -/
def UpKind.ofCode : Nat → Option UpKind
  | 9 => some .call
  | 10 => some .report
  | 11 => some .ability
  | 12 => some .confirm
  | 13 => some .echo
  | _ => none

/-! ### Handler payloads (12) -/

/-- The fields of a LOAD_PLAN payload as received (R26). -/
structure PlanPayload where
  number : Nat
  fee : Nat
  tierCount : Nat
  prices : List Nat
  ceilings : List Nat
  creditCeiling : Nat
  periodLength : Nat
  dose : Nat
  lowWater : Nat
  boostLimit : Nat
  arrearsLimit : Nat
  usageStep : Nat
  deriving DecidableEq, Repr

/-- A LOAD_PLAN payload read; prices and ceilings beyond the tier count are not read (12). -/
def PlanPayload.read (bs : List Byte) : PlanPayload :=
  let n := byteAt bs 3
  { number := byteAt bs 0
    fee := field bs 1 2
    tierCount := n
    prices := [field bs 4 2, field bs 6 2, field bs 8 2, field bs 10 2].take n
    ceilings := [field bs 12 3, field bs 15 3, field bs 18 3].take (n - 1)
    creditCeiling := field bs 21 3
    periodLength := byteAt bs 24
    dose := field bs 25 2
    lowWater := field bs 27 2
    boostLimit := byteAt bs 29
    arrearsLimit := field bs 30 2
    usageStep := field bs 32 2 }

/-- The fields of a LOAD_ACCOUNT payload (R14); the presence byte says which optional fields hold a value. -/
structure AccountPayload where
  kitId : Nat
  plan : Nat
  balance : Nat
  arrears : Nat
  windowBase : Option Nat
  periodStart : Option Nat
  baseline : Option Nat
  deriving DecidableEq, Repr

/-- A LOAD_ACCOUNT payload read. -/
def AccountPayload.read (bs : List Byte) : AccountPayload where
  kitId := field bs 0 4
  plan := byteAt bs 4
  balance := field bs 5 3
  arrears := field bs 8 2
  windowBase := if bitAt bs 10 0 then some (field bs 11 3) else none
  periodStart := if bitAt bs 10 1 then some (field bs 14 2) else none
  baseline := if bitAt bs 10 2 then some (field bs 16 3) else none

/-- A 4-byte two's complement number (12, ADJUST_CREDIT delta). -/
def signed32 (v : Nat) : Int := if v < 2147483648 then (v : Int) else (v : Int) - 4294967296

/-- A REPORT payload read (12): a, m, k, revoke-done, r and the kit events. -/
structure KitReport where
  applied : Nat
  meter : Nat
  remaining : Nat
  revokeDone : Bool
  discarded : Nat
  events : KitEvents
  deriving DecidableEq, Repr

/-- A REPORT payload read at its positions. -/
def KitReport.read (bs : List Byte) : KitReport where
  applied := byteAt bs 0
  meter := field bs 1 3
  remaining := field bs 4 3
  revokeDone := bitAt bs 7 0
  discarded := field bs 8 3
  events := KitEvents.ofByte (bs.getD 7 0)

/-- An ABILITY page 1 read at its positions (12), held without the overtaken mark (R142). -/
def Page1.read (bs : List Byte) : Page1 where
  kitId := field bs 1 4
  figures := ⟨byteAt bs 5, byteAt bs 6, field bs 7 2, byteAt bs 9, byteAt bs 10⟩
  nextPage := bitAt bs 11 0
  meter := field bs 12 3
  applied := byteAt bs 15
  remaining := field bs 16 3
  overtaken := false

/-- The ranges R141 asks of page 1. -/
def Page1.inRange (p : Page1) : Bool :=
  decide (1 ≤ p.figures.maxGrant ∧ p.figures.maxGrant ≤ 65535 ∧ p.figures.minExponent ≤ p.figures.maxExponent ∧
    p.figures.maxExponent ≤ 6 ∧ p.figures.meterClass ≤ 15)

/-- An ABILITY page 2 read at its positions (12). -/
def Page2.read (bs : List Byte) : Page2 where
  events := KitEvents.ofByte (bs.getD 5 0)
  preferred := byteAt bs 6

/-- The fields of a CONFIRM (12). -/
structure ConfirmPayload where
  kitId : Nat
  address : Nat
  placement : Placement
  figures : Figures
  nextPage : Bool
  meter : Nat
  applied : Nat
  remaining : Nat
  deriving DecidableEq, Repr

/-- A CONFIRM payload read at its positions. -/
def ConfirmPayload.read (bs : List Byte) : ConfirmPayload where
  kitId := field bs 0 4
  address := field bs 4 2
  placement := ⟨byteAt bs 6, byteAt bs 7, byteAt bs 8⟩
  figures := ⟨byteAt bs 9, byteAt bs 10, field bs 11 2, byteAt bs 13, byteAt bs 14⟩
  nextPage := bitAt bs 15 0
  meter := field bs 16 3
  applied := byteAt bs 19
  remaining := field bs 20 3

end Sys2Proof.Machine
end

