-- ==== Sys2Proof/Machine/Flags.lean ====
section
/-!
DEFINITION. Flag bytes and enumerated codes as the records carry them (spec/12_frame_and_record_layouts.md), the derived pin
receive-ready (R91) and the effective mode (R118).
-/

namespace Sys2Proof.Machine

/-- A flag as bit `k` of a number. -/
def flag (b : Bool) (k : Nat) : Nat := if b then 2 ^ k else 0

/-- The account state codes (12, IMAGE byte 0). -/
def AccountState.code : AccountState → Nat
  | .loaded => 1
  | .active => 2
  | .locked => 3
  | .suspended => 4
  | .quarantined => 5

/-- The quarantine cause codes (12, IMAGE byte 40). -/
def Cause.code : Cause → Nat
  | .regress => 1
  | .overclaim => 2
  | .grantSeq => 3
  | .arrearsLimit => 4

/-- The latch or event nibble in bits 7 to 4 (12). -/
def KitEvents.byte (e : KitEvents) : Nat := flag e.tamper 7 + flag e.panelFault 6 + flag e.batteryLow 5 + flag e.overload 4

/-- The handler codes (R73). -/
def Handler.code : Handler → Nat
  | .nodeControl => 0
  | .loadDisposition => 1
  | .setTime => 2
  | .readCounters => 3
  | .loadPlan => 4
  | .unloadPlan => 5
  | .loadAccount => 6
  | .unloadAccount => 7
  | .setAccountState => 8
  | .adjustCredit => 9
  | .applyVoucher => 10
  | .readAccount => 11
  | .relayToKit => 12
  | .probeKit => 13
  | .readPlan => 14
  | .discard => 15

/-- The report mode codes (12). -/
def ReportMode.code : ReportMode → Nat
  | .all => 1
  | .refusalsOnly => 2
  | .silent => 3

/-- The port mode codes (12). -/
def Mode.code : Mode → Nat
  | .run => 1
  | .drain => 2
  | .quiet => 3

/-- The NODE_CONTROL subcommand codes (12). -/
def NodeCommand.code : NodeCommand → Nat
  | .setIdentity => 1
  | .setConfig => 2
  | .resetNode => 3
  | .setCycle => 4
  | .setMode => 5
  | .fieldReset => 6
  | .clearEscalation => 7
  | .setAlarmMask => 8
  | .readStatus => 9

/-- The SET_ACCOUNT_STATE subcommand codes (12). -/
def AccountCommand.code : AccountCommand → Nat
  | .suspend => 1
  | .resume => 2
  | .clearQuarantine => 3
  | .changePlan => 4

/-- The link state codes (12). -/
def LinkState.code : LinkState → Nat
  | .absent => 0
  | .bringup .invited => 1
  | .bringup .page2 => 2
  | .bringup .offered => 3
  | .bringup .confirmed => 4
  | .bound => 5
  | .silent => 6

/-- The bring-up progress codes (12). -/
def Progress.code : Progress → Nat
  | .waiting => 1
  | .invited => 2
  | .page2 => 3
  | .offered => 4
  | .confirmed => 5
  | .declining => 6

/-- The bring-up failure cause codes (12). -/
def FailCause.code : FailCause → Nat
  | .calendarFull => 1
  | .consistency => 2
  | .timeout => 3
  | .accountState => 4

/-- The kit event codes (12). -/
def KitEvent.code : KitEvent → Nat
  | .tamper => 1
  | .panelFault => 2
  | .batteryLow => 3
  | .overload => 4

/-- The alarm cause codes (12). -/
def AlarmCause.code : AlarmCause → Nat
  | .reportLoss => 1
  | .escalated => 2
  | .yieldLimit => 3
  | .trunkCheck => 4
  | .callerOverflow => 5
  | .quarantine => 6
  | .clockUnset => 7
  | .warmRestart => 8
  | .coldRestart => 9

/-- The stage codes of a refusal (12). -/
def Stage.code : Stage → Nat
  | .header => 1
  | .disposition => 2
  | .authority => 3
  | .target => 4
  | .content => 5

/-- The reason codes, from 1 within each stage, 0 for AUTHORITY (12). -/
def Reason.code : Reason → Nat
  | .noReason => 0
  | .headerLength | .noDisposition | .slotKind | .length => 1
  | .slotRange | .broadcastAccount | .classRange => 2
  | .accountPresent | .fixedEntry => 3
  | .accountEmpty | .entryFields => 4
  | .noKitId | .controlCeiling => 5
  | .kitMismatch | .limitRange => 6
  | .kitId => 7
  | .noPlan => 8
  | .duplicateKit => 9
  | .balanceArrears => 10
  | .ceiling => 11
  | .subcommand => 12
  | .state => 13
  | .planNumber => 14
  | .planFields => 15
  | .planInUse => 16
  | .amountRange => 17
  | .quarantined => 18
  | .duplicate => 19
  | .stale => 20
  | .feeShort => 21
  | .relayLength => 22
  | .relayBusy => 23
  | .relayExpired => 24
  | .unloaded => 25
  | .cycleFields => 26
  | .modeCode => 27
  | .linkState => 28
  | .probeBusy => 29
  | .probeFields => 30
  | .holderOccupied => 31
  | .timeRange => 32
  | .timeRegress => 33
  | .authorityForce => 34
  | .identityRange => 35
  | .identityBroadcast => 36
  | .configFields => 37
  | .resetKind => 38

/-- The table codes of a refusal (12). -/
def TableId.code : TableId → Nat
  | .none => 0
  | .disposition => 1
  | .account => 2
  | .plan => 3

/-- The start kind codes (12). -/
def StartKind.code : StartKind → Nat
  | .cold => 1
  | .warm => 2

/-- The start cause codes (12). -/
def StartCause.code : StartCause → Nat
  | .power => 1
  | .command => 2

/-- The kind codes of the node's field frames (12, header block). -/
def DownKind.code : DownKind → Nat
  | .beacon => 1
  | .poll => 2
  | .probe => 3
  | .invite => 4
  | .offer => 5
  | .decline => 6

/-- The report kind codes (12). -/
def Body.code : Body → Nat
  | .receipt _ => 1
  | .refusal _ => 2
  | .quarantine _ _ _ _ _ _ _ => 3
  | .image _ _ => 4
  | .planImage _ _ => 5
  | .nodeCounters _ _ | .linkCounters _ _ _ => 6
  | .nodeStatus _ => 7
  | .probeResult _ _ _ _ => 8
  | .restart _ => 9
  | .notice _ => 10
  | .link _ _ => 11
  | .kitEvent _ _ => 12
  | .unknownKit _ _ => 13
  | .relayDone => 14
  | .alarm _ _ _ => 15

/-- The receive queue entries in use: occupied, and one reserved while the receiver is in RECEIVE (R91). -/
def TrunkPort.used (t : TrunkPort) : Nat :=
  t.queue.length + match t.receiver with
    | .receive _ => 1
    | .hunt | .open | .discard => 0

/-- The pin RXRDY (R91): asserted while an entry is free and unreserved; deasserted until a start completes (R101). -/
def State.receiveReady (s : State) : Bool := s.powered && decide (s.tp.used < 16)

/-- The effective mode from the node id in effect, the escalated flag and the requested mode (R118). -/
def effectiveMode (nodeId : Nat) (escalated : Bool) (requested : Mode) : Mode :=
  if nodeId = 0 then .quiet
  else if escalated && requested == .run then .drain
  else requested

end Sys2Proof.Machine
end

