-- ==== Sys2Proof/Machine/Code.lean ====
section
/-!
DEFINITION. The codes of the two ports: the CRC-32 and the escapes of the trunk (R186), the block code and the CRC-16 of the
field (R187).
-/

namespace Sys2Proof.Machine

/-! ### Trunk: CRC-32 and escapes (R186) -/

/-- One bit of the CRC-32 register: shift left, and add the generator 04C11DB7h when a 1 leaves. -/
def crc32Bit (r : BitVec 32) : BitVec 32 := if r.getLsbD 31 then (r <<< 1) ^^^ 0x04C11DB7#32 else r <<< 1

/-- One byte entered most significant bit first. -/
def crc32Byte (r : BitVec 32) (b : Byte) : BitVec 32 :=
  Nat.repeat crc32Bit 8 (r ^^^ (b.zeroExtend 32 <<< 24))

/-- The CRC-32 of bytes: register preset to FFFFFFFFh, no reflection, complemented at the end. -/
def crc32 (bs : List Byte) : BitVec 32 := ~~~ (bs.foldl crc32Byte 0xFFFFFFFF#32)

/-- The `width` bytes of a number, most significant first; higher bits are cut. -/
def beBytes : Nat → Nat → List Byte
  | 0, _ => []
  | w + 1, v => BitVec.ofNat 8 (v / 256 ^ w) :: beBytes w v

/-- A content byte as sent on the line (R186). -/
def escapeOne (b : Byte) : List Byte :=
  if b = delimiterByte then [escapeByte, 0x85]
  else if b = escapeByte then [escapeByte, 0x7A]
  else [b]

/-- The content byte that an escape followed by `b` stands for; none for an escape error (R186, R90). -/
def unescape (b : Byte) : Option Byte :=
  if b = 0x85 then some delimiterByte else if b = 0x7A then some escapeByte else none

/-- A trunk frame on the line: delimiter, escaped content, delimiter (R99, R186). The content is header, payload and CRC-32. -/
def wireFrame (headerAndPayload : List Byte) : List Byte :=
  let content := headerAndPayload ++ beBytes 4 (crc32 headerAndPayload).toNat
  delimiterByte :: (content.flatMap escapeOne ++ [delimiterByte])

/-! ### Field: the block code (R187) -/

/-- The bits of a byte, most significant first, in keying order. -/
def byteBits (b : Byte) : List Bool :=
  [b.getLsbD 7, b.getLsbD 6, b.getLsbD 5, b.getLsbD 4, b.getLsbD 3, b.getLsbD 2, b.getLsbD 1, b.getLsbD 0]

/-- The bits of bytes in keying order. -/
def keyingBits (bs : List Byte) : List Bool := bs.flatMap byteBits

/-- A bit as a number. -/
def bitNat (b : Bool) : Nat := if b then 1 else 0

/-- The byte of eight bits, most significant first. -/
def byteOfBits (bits : List Bool) : Byte := BitVec.ofNat 8 (bits.foldl (fun acc b => acc * 2 + bitNat b) 0)

/-- The first `n` bytes that bits stand for. -/
def bytesOfBits : Nat → List Bool → List Byte
  | 0, _ => []
  | n + 1, bits => byteOfBits (bits.take 8) :: bytesOfBits n (bits.drop 8)

/-- Whether a codeword position belongs to a check bit: the powers of two (R187). -/
def isCheckPosition (p : Nat) : Bool := [1, 2, 4, 8, 16, 32, 64].contains p

/-- The codeword positions of the first `n` data bits: 3, 5, 6, 7, 9 and onward, skipping the powers of two (R187). -/
def dataPositions (n : Nat) : List Nat := ((List.range' 3 93).filter (fun p => !isCheckPosition p)).take n

/-- The check bits c6 to c0 as a number: the exclusive-or of the positions of the data bits that are set, which has bit j set
exactly where cj is (R187). -/
def checkBits (bits : List Bool) : Nat :=
  ((dataPositions bits.length).zip bits).foldl (fun acc pb => if pb.2 then acc ^^^ pb.1 else acc) 0

/-- The exclusive-or of bits. -/
def parity (bits : List Bool) : Bool := bits.foldl xor false

/-- The check byte of a block's data bytes (R187): the overall parity bit in bit 7, c6 to c0 below. -/
def checkByte (data : List Byte) : Byte :=
  let bits := keyingBits data
  let c := checkBits bits
  let p := xor (parity bits) (parity (byteBits (BitVec.ofNat 8 c)))
  BitVec.ofNat 8 (bitNat p * 128 + c)

/-- A block of data bytes with its check byte. -/
def encodeBlock (data : List Byte) : Block := data ++ [checkByte data]

/-- The bits with the bit at index `i` inverted. -/
def flipBit (bits : List Bool) (i : Nat) : List Bool := bits.modify i not

/-- A decoded block: its data bytes, and whether it counts as a corrected block (R113, R187). -/
structure Decoded where
  data : List Byte
  corrected : Bool
  deriving DecidableEq, Repr

/-- A received block of `n` data bytes decoded by the table of R187; none when it is uncorrectable or has not n + 1 bytes. -/
def decodeBlock (n : Nat) (block : Block) : Option Decoded :=
  if block.length = n + 1 then
    let data := block.take n
    let check := block.getD n 0
    let bits := keyingBits data
    let syndrome := checkBits bits ^^^ (check.toNat % 128)
    let agrees := !(xor (parity bits) (parity (byteBits check)))
    if syndrome = 0 then some ⟨data, !agrees⟩
    else if agrees then none
    else if isCheckPosition syndrome then some ⟨data, true⟩
    else if syndrome < 8 * n + 8 then
      some ⟨bytesOfBits n (flipBit bits ((dataPositions (8 * n)).idxOf syndrome)), true⟩
    else none
  else none

/-! ### Field: CRC-16 (R187) -/

/-- One bit of the CRC-16 register, generator 1021h. -/
def crc16Bit (r : BitVec 16) : BitVec 16 := if r.getLsbD 15 then (r <<< 1) ^^^ 0x1021#16 else r <<< 1

/-- One byte entered most significant bit first. -/
def crc16Byte (r : BitVec 16) (b : Byte) : BitVec 16 := Nat.repeat crc16Bit 8 (r ^^^ (b.zeroExtend 16 <<< 8))

/-- The CRC-16 of payload bytes: register preset to FFFFh, no reflection, no complement. -/
def crc16 (bs : List Byte) : BitVec 16 := bs.foldl crc16Byte 0xFFFF#16

/-- Payload bytes cut to 32 (R112) and padded with zero bytes to whole blocks of 8. -/
def padBlocks (payload : List Byte) : List Byte :=
  let p := payload.take 32
  p ++ List.replicate ((8 - p.length % 8) % 8) 0

/-- The 8-byte groups of a padded payload. -/
def chunks8 : Nat → List Byte → List (List Byte)
  | 0, _ => []
  | n + 1, bs => bs.take 8 :: chunks8 n (bs.drop 8)

/-- The payload blocks of a frame (R112, R187): 8-byte groups, the last followed by the CRC-16 of the whole, each with its check
byte. -/
def payloadBlocks (payload : List Byte) : List Block :=
  let p := padBlocks payload
  let n := p.length / 8
  let crc := beBytes 2 (crc16 p).toNat
  (chunks8 n p).mapIdx fun i c => encodeBlock (if i + 1 = n then c ++ crc else c)

/-- A block with one data bit inverted after encoding, at position `j` counted from the most significant bit of byte 0 (R161). -/
def plantError (block : Block) (j : Nat) : Block := block.modify (j / 8) (fun b => b ^^^ (0x80#8 >>> (j % 8)))

/-- The coded blocks of a probe's payload with single-bit errors planted in blocks 0 to f - 1 (R161). -/
def plantErrors (blocks : List Block) (seed f : Nat) : List Block :=
  blocks.mapIdx fun b block => if b < f then plantError block ((seed + b) % 64) else block

/-- The pattern of a probe (R161): byte i is (lo + i × hi) mod 256. -/
def probePattern (seed : Nat) : List Byte :=
  (List.range 32).map fun i => BitVec.ofNat 8 (seed % 256 + i * (seed / 256))

end Sys2Proof.Machine
end

