-- ==== Sys2Proof/Machine/Layouts.lean ====
section
/-!
DEFINITION. The layouts of report records (R99, 12) and of the node's field frames (R112, R187): the bytes the ports send.
-/

namespace Sys2Proof.Machine

/-- A value in a field of `w` bytes. A value that fits is sent as it is; for one that does not the spec states nothing, and the
bytes are free (DESIGN CHOICE, log entry 20). -/
def put (w v : Nat) : List Byte := beBytes w (if v < 256 ^ w then v else Config.fieldOverflow w v)

/-- An optional value in a field of `w` bytes; absent is sent as 0 (12). -/
def putOpt (w : Nat) (v : Option Nat) : List Byte := put w (v.getD 0)

/-- A flag byte with bit 0 (12). -/
def putFlag (b : Bool) : List Byte := put 1 (flag b 0)

/-- Bytes filled with zeros up to length `n`; every byte a record's variant leaves unused is sent as 0 (12). -/
def fillTo (n : Nat) (bs : List Byte) : List Byte := bs ++ List.replicate (n - bs.length) 0

/-- Item `i` of a list of numbers, 0 beyond its end (12). -/
def item (l : List Nat) (i : Nat) : Nat := l.getD i 0

/-- Outcomes as bits from bit `top` downward, oldest first (12). -/
def historyBits (top : Nat) : List Bool → Nat
  | [] => 0
  | b :: bs => flag b top + historyBits (top - 1) bs

/-! ### Report payloads -/

/-- The refusal record payload (12). -/
def RefusalBody.bytes (r : RefusalBody) : List Byte :=
  let hasWindow := match r.figures with
    | some f => f.h.isSome
    | none => false
  let front := put 1 r.stage.code ++ put 1 r.reason.code ++ put 1 r.table.code ++ put 2 r.index ++ put 1 (r.cls.getD 0xFF)
  match r.figures with
  | none => front
  | some f =>
    front ++ put 1 (flag r.cls.isNone 0 + flag true 1 + flag hasWindow 2)
      ++ put 3 f.balance ++ put 3 f.allowance ++ put 2 f.arrears ++ putOpt 3 f.h

/-- The account IMAGE payload, 41 bytes (12). -/
def imageBytes (a : Account) (expired : Bool) : List Byte :=
  put 1 a.state.code ++ put 4 a.kitId ++ put 1 a.plan ++ put 3 a.balance ++ put 3 a.allowance ++ put 2 a.arrears
    ++ put 2 a.carry ++ put 3 a.periodPurchase ++ put 2 a.periodStart
    ++ putOpt 3 (a.window.map Window.h) ++ putOpt 2 (a.window.map fun w => w.marks.toNat)
    ++ put 1 a.q ++ putOpt 2 (a.pendingGrant.map PendingGrant.amount) ++ putOpt 2 (a.withdrawn.map Grant.amount)
    ++ put 1 (flag a.window.isSome 7 + flag a.pendingGrant.isSome 6
        + flag ((a.pendingGrant.map PendingGrant.sent).getD false) 5 + flag a.withdrawn.isSome 4
        + flag a.revokeDue 3 + flag a.lockNoticeDue 2 + flag a.rebaseDue 1 + flag a.boundOnce 0)
    ++ put 1 (flag a.baseline.isSome 1 + flag expired 0)
    ++ putOpt 1 (a.relay.map fun r => r.bytes.length) ++ putOpt 2 (a.relay.map Relay.tag) ++ putOpt 1 (a.relay.map Relay.polled)
    ++ putOpt 3 a.baseline ++ put 1 (a.latch.byte + ((a.cause.map Cause.code).getD 0))

/-- The PLAN_IMAGE payload, 37 bytes (12). -/
def planImageBytes (number : Nat) (plan : Option Plan) : List Byte :=
  put 1 number ++ match plan with
    | none => List.replicate 36 0
    | some p =>
      putFlag true ++ put 2 p.fee ++ put 1 p.prices.length
        ++ put 2 (item p.prices 0) ++ put 2 (item p.prices 1) ++ put 2 (item p.prices 2) ++ put 2 (item p.prices 3)
        ++ put 3 (item p.ceilings 0) ++ put 3 (item p.ceilings 1) ++ put 3 (item p.ceilings 2)
        ++ put 3 p.creditCeiling ++ put 1 p.periodLength ++ put 2 p.dose ++ put 2 p.lowWater ++ put 1 p.boostLimit
        ++ put 2 p.arrearsLimit ++ put 2 p.usageStep ++ put 2 p.useCount

/-- The COUNTERS payload for slot index 0, 26 bytes (12): the twelve counters in the order of R155, then the cycle number. -/
def nodeCounterBytes (c : NodeCounters) (cycle : Nat) : List Byte :=
  put 2 c.trunkCheck ++ put 2 c.gap ++ put 2 c.oversize ++ put 2 c.overrun ++ put 2 c.foreignTrunk ++ put 2 c.headerFails
    ++ put 2 c.contentionCollisions ++ put 2 c.foreignField ++ put 2 c.shortFrames ++ put 2 c.yieldedCycles
    ++ put 2 c.callsDropped ++ put 2 c.unknownCalls ++ put 2 cycle

/-- The COUNTERS payload for a slot index of 1 to 384, 32 bytes (R157, 12). -/
def linkCounterBytes (kitId : Nat) (l : LinkRetained) (v : LinkVolatile) : List Byte :=
  put 4 kitId ++ put 1 l.state.code ++ put 1 ((v.progress.map Progress.code).getD 0)
    ++ put 1 (flag l.placement.isSome 0 + flag l.figures.isSome 1 + flag v.probe.isSome 2 + flag v.reportTaken 3)
    ++ putOpt 1 (l.placement.map Placement.phase) ++ putOpt 1 (l.placement.map Placement.slot)
    ++ putOpt 1 (l.placement.map Placement.exponent)
    ++ putOpt 1 (l.figures.map Figures.meterClass) ++ putOpt 1 (l.figures.map Figures.firmware)
    ++ putOpt 2 (l.figures.map Figures.maxGrant) ++ putOpt 1 (l.figures.map Figures.minExponent)
    ++ putOpt 1 (l.figures.map Figures.maxExponent)
    ++ put 1 l.history.length ++ put 1 (historyBits 7 (l.history.map fun o => o == .miss)) ++ put 1 l.misses
    ++ putOpt 2 (v.probe.map Probe.seed) ++ putOpt 1 (v.probe.map Probe.forced) ++ putOpt 2 (v.probe.map Probe.tag)
    ++ put 2 v.goodFrames ++ put 2 v.missedWakes ++ put 2 v.failedFrames ++ put 2 v.correctedBlocks

/-- Four cycle parameters in 7 bytes (12). -/
def CycleParams.bytes (p : CycleParams) : List Byte :=
  put 2 p.slotLength ++ put 1 p.contentionCount ++ put 2 p.gap ++ put 2 p.replyWindow

/-- The clock's state, day and second in 6 bytes (12). -/
def Clock.bytes (c : Clock) : List Byte := putFlag c.isSet ++ put 2 c.day ++ put 3 c.second

/-- The YIELDED entries of a yield history (R109). -/
def yieldedCount (h : List YieldOutcome) : Nat := h.countP fun o => o == .yielded

/-- The NODE_STATUS payload, 47 bytes (R175, 12). -/
def StatusBody.bytes (b : StatusBody) : List Byte :=
  put 2 b.nodeId ++ put 1 b.rank ++ put 2 b.alarms.toNat ++ put 2 b.mask.toNat
    ++ put 1 b.tallies.receipt ++ put 1 b.tallies.refusal ++ put 1 b.tallies.reply ++ put 1 b.tallies.other
    ++ put 1 b.tallies.advisory
    ++ put 1 (flag b.escalated 0 + flag b.holder.isSome 1 + flag b.shadow.isSome 2 + flag b.clock.isSet 3)
    ++ putOpt 2 (b.holder.map Prod.fst) ++ putOpt 4 (b.holder.map Prod.snd) ++ put 1 b.fill
    ++ put 1 b.requested.code ++ put 1 b.effective.code ++ b.active.bytes
    ++ (match b.shadow with
        | none => List.replicate 7 0
        | some p => p.bytes)
    ++ put 2 b.cycle ++ put 1 b.history.length ++ put 2 (historyBits 15 (b.history.map fun o => o == .yielded))
    ++ put 1 (yieldedCount b.history) ++ put 2 b.clock.day ++ put 3 b.clock.second

/-- The PROBE_RESULT payload, 14 bytes (R164, 12). -/
def probeResultBytes (kitId : Nat) (p : Probe) (r : ProbeOutcome) (cycle : Nat) : List Byte :=
  let front (code : Nat) := put 4 kitId ++ put 2 p.seed ++ put 1 p.forced ++ put 1 code ++ put 2 cycle
  match r with
  | .pass k n => fillTo 14 (front 1 ++ put 1 k ++ put 1 n)
  | .decodeMismatch k n => fillTo 14 (front 2 ++ put 1 k ++ put 1 n)
  | .patternMismatch k n d i => front 3 ++ put 1 k ++ put 1 n ++ put 1 d ++ put 1 i
  | .noEcho => fillTo 14 (front 4)

/-- The RESTART payload, 19 bytes (R185, 12). -/
def RestartBody.bytes (b : RestartBody) : List Byte :=
  put 1 b.kind.code ++ put 1 b.cause.code ++ put 2 b.nodeId ++ put 1 b.rank ++ b.clock.bytes ++ put 1 b.requested.code
    ++ put 2 b.accounts ++ put 1 b.plans ++ put 2 b.silenced ++ put 2 b.abandoned

/-- The NOTICE payload, 7 bytes (12). -/
def NoticeBody.bytes : NoticeBody → List Byte
  | .balanceClamped x => put 1 1 ++ put 3 x ++ put 3 0
  | .adjustClamped x y => put 1 2 ++ put 3 x ++ put 3 y
  | .arrearsClamped x => put 1 3 ++ put 3 x ++ put 3 0
  | .usageJump x y => put 1 4 ++ put 3 x ++ put 3 y
  | .allowanceDrift x => put 1 5 ++ put 3 x ++ put 3 0
  | .cause .regress => put 1 6 ++ put 3 0 ++ put 3 0
  | .cause .overclaim => put 1 7 ++ put 3 0 ++ put 3 0
  | .cause .grantSeq => put 1 8 ++ put 3 0 ++ put 3 0
  | .cause .arrearsLimit => put 1 9 ++ put 3 0 ++ put 3 0

/-- The LINK payload, 10 bytes (12). -/
def linkBytes (kitId : Nat) : LinkBody → List Byte
  | .bound p cycles =>
    put 1 1 ++ put 4 kitId ++ put 1 p.phase ++ put 1 p.slot ++ put 1 p.exponent ++ put 2 cycles
  | .silent m => fillTo 10 (put 1 2 ++ put 4 kitId ++ put 1 m)
  | .resumed m => fillTo 10 (put 1 3 ++ put 4 kitId ++ put 1 m)
  | .bringupFailed c p n => fillTo 10 (put 1 4 ++ put 4 kitId ++ put 1 c.code ++ put 1 p.code ++ put 1 n)

/-- Window present and h in 4 bytes (12, RECEIPT rows). -/
def windowBytes (h : Option Nat) : List Byte := putFlag h.isSome ++ putOpt 3 h

/-- The bytes after byte 0 of a NODE_CONTROL RECEIPT: the subcommand, then its fields. -/
def nodeReceipt (c : NodeCommand) (fields : List Byte) : List Byte :=
  put 1 Handler.nodeControl.code ++ put 1 c.code ++ fields

/-- The RECEIPT payload: the handler code in byte 0, then the fields of its row (12). -/
def ReceiptBody.bytes : ReceiptBody → List Byte
  | .loadDisposition cls e limit =>
    put 1 1 ++ put 1 cls ++ putFlag e.isSome ++ putOpt 1 (e.map fun e => e.handler.code) ++ putOpt 1 (e.map Entry.ceiling)
      ++ putOpt 1 (e.map fun e => e.mode.code) ++ put 1 limit
  | .setTime was d0 s0 d s forced =>
    put 1 2 ++ putFlag was ++ put 2 d0 ++ put 3 s0 ++ put 2 d ++ put 3 s ++ putFlag forced
  | .loadPlan n newly u c => put 1 4 ++ put 1 n ++ putFlag newly ++ put 2 u ++ put 3 c
  | .unloadPlan n => put 1 5 ++ put 1 n
  | .loadAccount k p b r h => put 1 6 ++ put 4 k ++ put 1 p ++ put 3 b ++ put 2 r ++ windowBytes h
  | .setAccountState c st0 st1 b g r q p h =>
    put 1 8 ++ put 1 c.code ++ put 1 st0.code ++ put 1 st1.code ++ put 3 b ++ put 3 g ++ put 2 r ++ put 1 q ++ put 1 p
      ++ windowBytes h
  | .adjustCredit r =>
    put 1 9 ++ put 4 r.kitId ++ put 4 (r.delta % 4294967296).toNat ++ put 2 r.forgiven ++ put 3 r.added ++ put 3 r.removed
      ++ put 2 r.paid ++ put 3 r.balance ++ put 3 r.allowance ++ put 2 r.arrears ++ put 1 r.state.code
  | .applyVoucher r =>
    put 1 10 ++ put 4 r.kitId ++ put 3 r.s ++ put 3 r.amount ++ put 2 r.fee
      ++ put 3 (item r.tierCredits 0) ++ put 3 (item r.tierCredits 1) ++ put 3 (item r.tierCredits 2)
      ++ put 3 (item r.tierCredits 3)
      ++ put 3 r.credit ++ put 2 r.pay ++ put 3 r.balance ++ put 2 r.arrears ++ put 2 r.carry ++ put 3 r.periodPurchase
      ++ putFlag r.rolled ++ put 3 r.h ++ put 1 r.state.code
  | .relayToKit n => put 1 12 ++ put 1 n
  | .probeKit seed f => put 1 13 ++ put 2 seed ++ put 1 f
  | .discard cls n => put 1 15 ++ put 1 cls ++ put 1 n
  | .setIdentity id rk ide rke => nodeReceipt .setIdentity (put 2 id ++ put 1 rk ++ put 2 ide ++ put 1 rke)
  | .setConfig c =>
    nodeReceipt .setConfig (put 1 c.defaultExponent ++ put 1 c.silenceLimit ++ put 1 c.bringupLimit ++ put 1 c.yieldLimit)
  | .setCycle p cycle => nodeReceipt .setCycle (p.bytes ++ put 2 cycle)
  | .setMode r e => nodeReceipt .setMode (put 1 r.code ++ put 1 e.code)
  | .fieldReset b s p => nodeReceipt .fieldReset (put 2 b ++ put 2 s ++ put 2 p)
  | .clearEscalation w => nodeReceipt .clearEscalation (putFlag w)
  | .setAlarmMask m => nodeReceipt .setAlarmMask (put 2 m.toNat)

/-- The payload of a report record (12). -/
def Body.bytes : Body → List Byte
  | .receipt r => r.bytes
  | .refusal r => r.bytes
  | .quarantine k c left b g r q =>
    put 4 k ++ put 1 c.code ++ put 1 left.code ++ put 3 b ++ put 3 g ++ put 2 r ++ put 1 q
  | .image a expired => imageBytes a expired
  | .planImage n p => planImageBytes n p
  | .nodeCounters c cycle => nodeCounterBytes c cycle
  | .linkCounters k l v => linkCounterBytes k l v
  | .nodeStatus b => b.bytes
  | .probeResult k p r cycle => probeResultBytes k p r cycle
  | .restart b => b.bytes
  | .notice n => n.bytes
  | .link k b => linkBytes k b
  | .kitEvent k e => put 4 k ++ put 1 e.code
  | .unknownKit k u => put 4 k ++ put 1 u
  | .relayDone => []
  | .alarm c cycle clock => put 1 c.code ++ put 2 cycle ++ clock.bytes

/-- The report frame header (12): source, report kind, tag, slot index, payload length. -/
def reportHeader (source : Nat) (r : Report) : List Byte :=
  put 2 source ++ put 1 r.body.code ++ put 2 r.tag ++ put 2 r.slot ++ put 1 r.body.bytes.length

/-- The bytes of a record's report frame on the line (R99). -/
def Report.wire (source : Nat) (r : Report) : List Byte := wireFrame (reportHeader source r ++ r.body.bytes)

/-! ### The node's field frames (R112, R187) -/

/-- The header block's data bytes of a node's frame (12). -/
def downHeader (nodeId cycle : Nat) (f : DownFrame) (blocks : Nat) : List Byte :=
  put 1 f.kind.code ++ put 2 nodeId ++ put 2 f.address ++ put 1 (cycle % 64) ++ put 1 blocks ++ putFlag f.reportTaken

/-- The coded blocks of a node's frame: header block, then payload blocks, with a probe's planted errors (R112, R161). -/
def DownFrame.air (f : DownFrame) (nodeId cycle : Nat) : List Block :=
  let blocks := payloadBlocks f.payload
  let blocks := match f.planted with
    | none => blocks
    | some (seed, n) => plantErrors blocks seed n
  encodeBlock (downHeader nodeId cycle f blocks.length) :: blocks

/-- The BEACON frame (R110). -/
def beaconFrame (nodeId cycle day contention : Nat) (callsOpen : Bool) : DownFrame where
  kind := .beacon
  address := 0
  reportTaken := false
  payload := put 2 nodeId ++ put 2 cycle ++ put 2 day ++ put 1 contention ++ putFlag callsOpen
  planted := none

/-- The POLL payload of an instruction set (12). -/
def pollPayload (i : InstructionSet) : List Byte :=
  put 1 (flag i.grant.isSome 0 + flag i.revoke 1 + flag i.lockNotice 2 + flag i.relay.isSome 3)
    ++ putOpt 1 (i.grant.map Grant.seq) ++ putOpt 2 (i.grant.map Grant.amount)
    ++ putOpt 1 (i.relay.map fun r => r.bytes.length) ++ putOpt 2 (i.relay.map Relay.tag)
    ++ ((i.relay.map Relay.bytes).getD [])

/-- The POLL frame of a wake (R127). -/
def pollFrame (slot : Nat) (reportTaken : Bool) (i : InstructionSet) : DownFrame :=
  ⟨.poll, slot, reportTaken, pollPayload i, none⟩

/-- The PROBE frame of a wake (R161). -/
def probeFrame (slot : Nat) (p : Probe) : DownFrame := ⟨.probe, slot, false, probePattern p.seed, some (p.seed, p.forced)⟩

/-- The INVITE frame (R140). -/
def inviteFrame (kitId page : Nat) : DownFrame := ⟨.invite, 0, false, put 4 kitId ++ put 1 page, none⟩

/-- The OFFER frame (R144). -/
def offerFrame (kitId slot : Nat) (p : Placement) (nodeId dose : Nat) : DownFrame :=
  ⟨.offer, 0, false,
    put 4 kitId ++ put 2 slot ++ put 1 p.phase ++ put 1 p.slot ++ put 1 p.exponent ++ put 2 nodeId ++ put 2 dose, none⟩

/-- The DECLINE frame (R140, R151). -/
def declineFrame (kitId : Nat) (c : FailCause) : DownFrame := ⟨.decline, 0, false, put 4 kitId ++ put 1 c.code, none⟩

end Sys2Proof.Machine
end

