-- ==== Sys2Proof/Machine/Grants.lean ====
section
/-!
DEFINITION. The Credit Engine on the field side (03, 08): the poll request and its instruction set, grant creation, the keying
notice, reconciliation in its six stages, the confirmation delivery, fresh adoption and the account's part of the bind.
-/

namespace Sys2Proof.Machine

/-- The plan an account names. An account always names a present plan (R22, R28); the fallback is never met there. -/
def State.planOf (s : State) (a : Account) : Plan := (s.plan a.plan).getD default

/-- A deferred REFUSAL of a relay payload (R86): stage CONTENT, table ACCOUNT, no class, under the originating tag. -/
def deferredRefusal (slot tag : Nat) (reason : Reason) : Report :=
  ⟨tag, slot, .refusal ⟨.content, reason, .account, slot, none, none⟩⟩

/-! ### Poll request (R44, R45, R49, R50, R68) -/

/-- The MISS outcomes in a wake history (R50). -/
def missCount (h : List WakeOutcome) : Nat := h.countP fun o => o == .miss

/-- The boost b of a grant (R50): half the MISS outcomes, rounded down, limited by the plan's boost limit. -/
def boost (h : List WakeOutcome) (limit : Nat) : Nat := min (missCount h / 2) limit

/-- The amount of a grant (R50): the smallest of the balance, the boosted dose and the kit max grant. -/
def grantAmount (balance dose b maxGrant : Nat) : Nat := min (min balance (dose * (1 + b))) maxGrant

/-- The conditions of grant creation (R49), on the account, its plan, the link state and the effective mode. -/
def Account.mayGrant (a : Account) (p : Plan) (link : LinkState) (mode : Mode) : Bool :=
  a.state == .active && link == .bound && mode == .run && a.pendingGrant.isNone && a.withdrawn.isNone
    && decide (a.allowance < p.lowWater) && decide (0 < a.balance)

/-- The grant creation step of the poll request (R49, R50). The kit max grant comes from the link's confirmed figures; a link
without them gets no grant. -/
def Account.createGrant (a : Account) (p : Plan) (l : LinkRetained) (mode : Mode) : Account :=
  match l.figures with
  | none => a
  | some fig =>
    if a.mayGrant p l.state mode then
      let g := grantAmount a.balance p.dose (boost l.history p.boostLimit) fig.maxGrant
      { a with balance := a.balance - g, q := seqSucc a.q, pendingGrant := some ⟨seqSucc a.q, g, false⟩ }
    else a

/-- The relay expiry step (R68): a payload already carried 16 times is dropped, with its deferred refusal. -/
def Account.expireRelay (a : Account) (slot : Nat) : Account × List Report :=
  match a.relay with
  | none => (a, [])
  | some r => if 16 ≤ r.polled then ({ a with relay := none }, [deferredRefusal slot r.tag .relayExpired]) else (a, [])

/-- The assembly step (R45): what the instruction set carries. -/
def Account.instructionSet (a : Account) : InstructionSet where
  grant := a.pendingGrant.map fun g => ⟨g.seq, g.amount⟩
  revoke := a.revokeDue
  lockNotice := a.lockNoticeDue
  relay := a.relay

/-- A carried relay payload's polled-wake count rises by 1 (R44 step 4). -/
def Account.countRelay (a : Account) : Account := { a with relay := a.relay.map fun r => { r with polled := r.polled + 1 } }

/-- The poll request (R44): the account changed as one operation, and the instruction set returned. -/
def State.pollRequest (s : State) (slot kitId : Nat) : State × InstructionSet :=
  match s.account slot with
  | none => (s, {})
  | some a =>
    if a.kitId = kitId then
      let (a, expired) := a.expireRelay slot
      let a := a.createGrant (s.planOf a) (s.link slot) s.fp.effective
      let s := s.handAll expired
      (s.setAccount slot (some a.countRelay), a.instructionSet)
    else (s, {})

/-! ### Keying notice (R46) -/

/-- The keying notice on an account whose kit id is unchanged (R46). -/
def Account.keyed (a : Account) (g : Grant) : Account :=
  match a.pendingGrant with
  | some p => if p.seq = g.seq then { a with pendingGrant := some { p with sent := true } } else a
  | none =>
    if a.withdrawn.isNone && g.seq == seqSucc a.q then { a with withdrawn := some g, q := g.seq } else a

/-- The keying notice (R46): it names the slot, the kit id and the grant the POLL carries, if any. -/
def State.keyingNotice (s : State) (slot kitId : Nat) (grant : Option Grant) : State :=
  match grant, s.account slot with
  | some g, some a => if a.kitId = kitId then s.setAccount slot (some (a.keyed g)) else s
  | _, _ => s

/-! ### Reconciliation (R54 to R63) -/

/-- What a reconciliation has gathered: the account as the stages left it, the notices and the faults, in order. -/
structure Recon where
  acct : Account
  notices : List NoticeBody := []
  faults : List Cause := []
  deriving DecidableEq, Repr

/-- The allowance after a grant is applied. A sum above the range of G is not stated by the spec: a free value within the range
(DESIGN CHOICE, log entry 19). -/
def addAllowance (G g : Nat) : Nat := if G + g ≤ maxWh then G + g else Config.allowanceOverflow G g % (maxWh + 1)

/-- Energy added to the arrears, clamped at 65,535 with a NOTICE ARREARS_CLAMPED (R55, R57). -/
def Account.addArrears (a : Account) (x : Nat) : Account × List NoticeBody :=
  if maxArrears < a.arrears + x then ({ a with arrears := maxArrears }, [.arrearsClamped (a.arrears + x - maxArrears)])
  else ({ a with arrears := a.arrears + x }, [])

/-- Energy taken from the balance, the shortfall passing into the arrears (R55, R57). -/
def Account.drawBalance (a : Account) (x : Nat) : Account × List NoticeBody :=
  let taken := min x a.balance
  { a with balance := a.balance - taken }.addArrears (x - taken)

/-- Stage 1, the grant sequence (R55). -/
def Recon.stage1 (r : Recon) (applied : Nat) : Recon :=
  let a := r.acct
  match a.pendingGrant, a.withdrawn with
  | some g, _ =>
    if applied = a.q then { r with acct := { a with allowance := addAllowance a.allowance g.amount, pendingGrant := none } }
    else if applied = seqPred a.q then r
    else { r with faults := r.faults ++ [.grantSeq] }
  | none, some w =>
    if applied = a.q then
      let (a', ns) := a.drawBalance w.amount
      { r with
        acct := { a' with allowance := addAllowance a'.allowance w.amount, withdrawn := none }
        notices := r.notices ++ ns }
    else if applied = seqPred a.q then { r with acct := { a with withdrawn := none, q := applied } }
    else { r with faults := r.faults ++ [.grantSeq] }
  | none, none => if applied = a.q then r else { r with faults := r.faults ++ [.grantSeq] }

/-- The forward distance of the 24-bit meter (R56). -/
def meterDistance (meter baseline : Nat) : Nat := (meter + 16777216 - baseline % 16777216) % 16777216

/-- The usage d is a regression when it is above 8,388,608 (R56). -/
def regressed (d : Nat) : Bool := decide (8388608 < d)

/-- The charge of a usage d (R57): allowance, then balance, then arrears, then the new baseline. -/
def Recon.charge (r : Recon) (d meter step : Nat) : Recon :=
  let a := r.acct
  let jump := if step < d then [NoticeBody.usageJump d step] else []
  let used := min d a.allowance
  let (a', ns) := { a with allowance := a.allowance - used }.drawBalance (d - used)
  { r with acct := { a' with baseline := some meter }, notices := r.notices ++ jump ++ ns }

/-- The test against the plan's arrears limit at the end of stage 2 (R58). -/
def Recon.limitTest (r : Recon) (limit : Nat) : Recon :=
  if limit < r.acct.arrears then { r with faults := r.faults ++ [.arrearsLimit] } else r

/-- Stage 2, usage (R56 to R58). The flag says whether REGRESS was found, after which stages 3 and 4 are skipped. -/
def Recon.stage2 (r : Recon) (p : Plan) (meter : Nat) : Recon × Bool :=
  let a := r.acct
  let adopt : Recon := { r with acct := { a with baseline := some meter, rebaseDue := false } }
  match a.baseline with
  | none => (adopt.limitTest p.arrearsLimit, false)
  | some u =>
    if a.rebaseDue then (adopt.limitTest p.arrearsLimit, false)
    else
      let d := meterDistance meter u
      if regressed d then ({ r with faults := r.faults ++ [.regress] }, true)
      else ((r.charge d meter p.usageStep).limitTest p.arrearsLimit, false)

/-- Stage 3, the revoke result (R59). The flag says whether OVERCLAIM was found, after which stage 4 is skipped. -/
def Recon.stage3 (r : Recon) (carried : InstructionSet) (rep : KitReport) : Recon × Bool :=
  if carried.revoke && rep.revokeDone then
    if rep.discarded ≤ r.acct.allowance then
      let (a, ns) := { r.acct with allowance := r.acct.allowance - rep.discarded }.returnToBalance rep.discarded
      ({ r with acct := { a with revokeDue := false }, notices := r.notices ++ ns }, false)
    else ({ r with faults := r.faults ++ [.overclaim] }, true)
  else (r, false)

/-- Stage 4, the allowance compare (R60). -/
def Recon.stage4 (r : Recon) (remaining : Nat) : Recon :=
  if remaining = r.acct.allowance then r
  else if remaining < r.acct.allowance then
    { r with
      acct := { r.acct with allowance := remaining }
      notices := r.notices ++ [.allowanceDrift (r.acct.allowance - remaining)] }
  else { r with faults := r.faults ++ [.overclaim] }

/-- Stages 1 to 4 with the skips of R54. -/
def Recon.figures (r : Recon) (p : Plan) (rep : KitReport) (carried : InstructionSet) : Recon :=
  let r1 := r.stage1 rep.applied
  if r1.faults ≠ r.faults then r1
  else
    let (r2, regress) := r1.stage2 p rep.meter
    if regress then r2
    else
      let (r3, overclaim) := r2.stage3 carried rep
      if overclaim then r3 else r3.stage4 rep.remaining

/-- The events of a report that are not yet latched, in the order of R61. -/
def newEvents (latch events : KitEvents) : List KitEvent :=
  (if events.tamper && !latch.tamper then [.tamper] else [])
    ++ (if events.panelFault && !latch.panelFault then [.panelFault] else [])
    ++ (if events.batteryLow && !latch.batteryLow then [.batteryLow] else [])
    ++ (if events.overload && !latch.overload then [.overload] else [])

/-- The latch with the events of a report added (R61). -/
def KitEvents.add (latch events : KitEvents) : KitEvents where
  tamper := latch.tamper || events.tamper
  panelFault := latch.panelFault || events.panelFault
  batteryLow := latch.batteryLow || events.batteryLow
  overload := latch.overload || events.overload

/-- KIT_EVENT records of newly latched events (R61). -/
def eventRecords (slot kitId : Nat) (es : List KitEvent) : List Report := es.map fun e => ⟨0, slot, .kitEvent kitId e⟩

/-- Stage 5 on the latch (R61). -/
def Account.latchEvents (a : Account) (slot : Nat) (events : KitEvents) : Account × List Report :=
  ({ a with latch := a.latch.add events }, eventRecords slot a.kitId (newEvents a.latch events))

/-- Stage 5 on the carried items (R61): the lock notice carried is cleared, and a relay payload carried and still held is done. -/
def Account.takeCarried (a : Account) (slot : Nat) (carried : InstructionSet) : Account × List Report :=
  let a := if carried.lockNotice then { a with lockNoticeDue := false } else a
  match carried.relay, a.relay with
  | some c, some r => if c.tag = r.tag then ({ a with relay := none }, [⟨r.tag, slot, .relayDone⟩]) else (a, [])
  | _, _ => (a, [])

/-- The QUARANTINE record of an account that has entered QUARANTINED from `left` (R8, R63). -/
def quarantineRecord (slot : Nat) (c : Cause) (left : AccountState) (a : Account) : Report :=
  ⟨0, slot, .quarantine a.kitId c left a.balance a.allowance a.arrears a.q⟩

/-- Entry to QUARANTINED with a first cause, or the notices of causes found while QUARANTINED (R8, R62). Answers the account,
the QUARANTINE record if one is made, the notices of the entry, and the causes still to be noticed. -/
def Account.quarantine (a : Account) (slot : Nat) (first : Cause) (further : List Cause) :
    Account × List Report × List NoticeBody × List Cause :=
  if a.state = .quarantined then (a, [], [], first :: further)
  else
    let (a', ns) := { a with cause := some first }.enterHold .quarantined
    (a', [quarantineRecord slot first a.state a'], ns, further)

/-- The six stages of one delivery (R54), and the records in the order of R63. -/
def Account.reconcile (a : Account) (p : Plan) (slot : Nat) (rep : KitReport) (carried : InstructionSet) :
    Account × List Report :=
  let r := ({ acct := a : Recon }).figures p rep carried
  let (a, events) := r.acct.latchEvents slot rep.events
  let (a, done) := a.takeCarried slot carried
  match r.faults with
  | [] => (a.creditTest, noticeRecords 0 slot r.notices ++ events ++ done)
  | c :: cs =>
    let (a, qs, ns, causes) := a.quarantine slot c cs
    (a, qs ++ noticeRecords 0 slot (r.notices ++ ns ++ causes.map .cause) ++ events ++ done)

/-- A report delivery (R47): discarded for an EMPTY account or another kit id, else reconciled. The flag is the answer
"taken". -/
def State.deliver (s : State) (slot kitId : Nat) (rep : KitReport) (carried : InstructionSet) : State × Bool :=
  match s.account slot with
  | none => (s, false)
  | some a =>
    if a.kitId = kitId then
      let (a', rs) := a.reconcile (s.planOf a) slot rep carried
      ((s.setAccount slot (some a')).handAll rs, true)
    else (s, false)

/-! ### Confirmation delivery and fresh adoption (R64, R147) -/

/-- Fresh adoption (R147): sequence, allowance, meter, events, fault; the records in the order of its steps. A baseline that an
earlier adoption wrote is tested as a loaded one is (DEDUCED, log entry 33). -/
def Account.adopt (a : Account) (slot : Nat) (p1 : Page1) (events : KitEvents) : Account × List Report :=
  let a := { a with q := p1.applied, allowance := p1.remaining }
  let untested := a.rebaseDue || a.baseline.isNone
  let fault := !untested && regressed (meterDistance p1.meter (a.baseline.getD 0))
  let a := if fault then a else { a with baseline := some p1.meter, rebaseDue := false }
  let (a, es) := a.latchEvents slot events
  if fault then
    let (a, qs, ns, causes) := a.quarantine slot .regress []
    (a, es ++ qs ++ noticeRecords 0 slot (ns ++ causes.map .cause))
  else (a, es)

/-- The confirmation delivery (R64): six stages for an account bound once, unless the page 1 is overtaken; fresh adoption
otherwise. -/
def State.confirmDelivery (s : State) (slot : Nat) (p1 : Page1) (events : KitEvents) : State :=
  match s.account slot with
  | none => s
  | some a =>
    if a.kitId = p1.kitId then
      if a.boundOnce then
        if p1.overtaken then s
        else
          let (a', rs) := a.reconcile (s.planOf a) slot ⟨p1.applied, p1.meter, p1.remaining, false, 0, events⟩ {}
          (s.setAccount slot (some a')).handAll rs
      else
        let (a', rs) := a.adopt slot p1 events
        (s.setAccount slot (some a')).handAll rs
    else s

/-! ### The account's part of the bind (R5) -/

/-- The bind on the account (R5). -/
def Account.bind (a : Account) : Account :=
  let a := { a with boundOnce := true }
  match a.state with
  | .loaded =>
    if 0 < a.balance ∨ 0 < a.allowance ∨ a.pendingGrant.isSome then a.enterActive else a.enterLocked
  | .active | .locked => a.creditTest
  | .suspended | .quarantined => a

end Sys2Proof.Machine
end

