-- ==== Sys2Proof/Machine/Links.lean ====
section
/-!
DEFINITION. The Link Controller (07, 08, 09): the Wake Calendar, the Caller Queue, bring-up, wakes and probes.
-/

namespace Sys2Proof.Machine

/-! ### The Wake Calendar (R122 to R124) -/

/-- The rows a placement covers (R122): phase + k × interval, for k below 64 / interval. -/
def Placement.rows (p : Placement) : List Nat := (List.range (64 / 2 ^ p.exponent)).map fun k => p.phase + k * 2 ^ p.exponent

/-- The place of a cell in the calendar: 24 cells a row. -/
def cellIndex (row column : Nat) : Nat := row * 24 + column

/-- The cells a placement covers. -/
def Placement.cells (p : Placement) : List Nat := p.rows.map fun r => cellIndex r p.slot

/-- The short address in a cell; `none` is free (R122). -/
def State.cell (s : State) (row column : Nat) : Option Nat := (s.ret.calendar[cellIndex row column]?).join

/-- Whether every cell of a placement is free. -/
def State.placementFree (s : State) (p : Placement) : Bool := p.cells.all fun i => s.ret.calendar[i]? == some none

/-- The cells of a placement all set to one content. -/
def State.fillCells (s : State) (p : Placement) (v : Option Nat) : State :=
  { s with ret := { s.ret with calendar := p.cells.foldl (fun c i => c.setIfInBounds i v) s.ret.calendar } }

/-- A release (R124): the cells of the link record's placement become free and the placement leaves the record. -/
def State.release (s : State) (slot : Nat) : State :=
  match (s.link slot).placement with
  | none => s
  | some p => (s.fillCells p none).mapLink slot fun l => { l with placement := none }

/-- The placements of one exponent in search order: phase from 0 upward, within it data slot 0 to 23 (R123). -/
def placementsAt (e : Nat) : List Placement :=
  (List.range (2 ^ e)).flatMap fun p => (List.range 24).map fun d => ⟨p, d, e⟩

/-- The start exponent of an allocation (R123). -/
def startExponent (minExponent maxExponent preferred : Nat) : Nat := min (max minExponent preferred) maxExponent

/-- The search of an allocation (R123): exponents ascending from the start exponent to the kit's maximum. -/
def State.findPlacement (s : State) (start maxExponent : Nat) : Option Placement :=
  ((List.range' start (maxExponent + 1 - start)).flatMap placementsAt).find? s.placementFree

/-! ### The Caller Queue (R135, R136) -/

/-- The queue order (R135): more urgent first, within one urgency the earlier arrival. -/
def Caller.before (a b : Caller) : Bool :=
  decide (a.urgency < b.urgency) || (a.urgency == b.urgency && decide (a.arrival < b.arrival))

/-- An entry placed in the queue by its order (R135). -/
def insertCaller (c : Caller) : List Caller → List Caller
  | [] => [c]
  | d :: ds => if c.before d then c :: d :: ds else d :: insertCaller c ds

/-- The entry of a slot's kit. -/
def State.caller (s : State) (slot : Nat) : Option Caller := s.lc.callers.find? fun c => c.slot == slot

/-- The Caller Queue replaced. -/
def State.setCallers (s : State) (cs : List Caller) : State := { s with lc := { s.lc with callers := cs } }

/-- The entry of a slot's kit changed in its place. -/
def State.mapCaller (s : State) (slot : Nat) (f : Caller → Caller) : State :=
  s.setCallers (s.lc.callers.map fun c => if c.slot = slot then f c else c)

/-- The bring-up part of a link record made absent (R139). -/
def LinkVolatile.clearBringup (v : LinkVolatile) : LinkVolatile :=
  { v with progress := none, page1 := none, page2 := none, mismatches := 0, declineCause := none, declineAge := 0 }

/-- The kit id of a link record is absent while the link is ABSENT and not queued (R125). -/
def LinkRetained.dropAbsentKit (l : LinkRetained) : LinkRetained := if l.state = .absent then { l with kitId := none } else l

/-- The entry of a slot's kit leaves the queue, and with it the bring-up part of its link record (R136, R139). -/
def State.leaveQueue (s : State) (slot : Nat) : State :=
  ((s.setCallers (s.lc.callers.filter fun c => c.slot != slot)).mapLinkVol slot LinkVolatile.clearBringup).mapLink slot
    LinkRetained.dropAbsentKit

/-! ### Probes dropped (R160) -/

/-- Whether a probe wake for the slot is in progress with its probe still held. -/
def State.probeWake (s : State) (slot : Nat) : Bool :=
  match s.lc.exchange with
  | some ⟨.probe (some _), k, _⟩ => k == slot
  | _ => false

/-- The probe record of a link made absent. -/
def State.forgetProbe (s : State) (slot : Nat) : State := s.mapLinkVol slot fun v => { v with probe := none }

/-- A probe wake in progress for the slot loses its probe (R164). -/
def State.dropFromWake (s : State) (slot : Nat) : State :=
  if s.probeWake slot then
    { s with lc := { s.lc with exchange := s.lc.exchange.map fun e => { e with kind := .probe none } } }
  else s

/-- The cycle number of a dropped probe's result (R164; DESIGN CHOICE, log entry 21). -/
def State.droppedCycle (s : State) (slot : Nat) : Nat :=
  if s.probeWake slot then s.fp.cycle else Config.droppedProbeCycle s.fp.cycle % 65536

/-- A held probe is dropped with a PROBE_RESULT NO_ECHO (R160). A probe wake in progress for the slot goes on without it, so it
gives no second result (R164). The kit id is the account's, which every end of a held probe still finds. Outside its wake the
record's cycle number is free (DESIGN CHOICE, log entry 21). -/
def State.dropProbe (s : State) (slot : Nat) : State :=
  match (s.linkVol slot).probe with
  | none => s
  | some p =>
    ((s.forgetProbe slot).dropFromWake slot).hand
      ⟨p.tag, slot, .probeResult (((s.account slot).map Account.kitId).getD 0) p .noEcho (s.droppedCycle slot)⟩

/-! ### Bring-up failure (R150) -/

/-- Steps 1 and 2 of a failure (R150): a link in BRINGUP gives up its placement and becomes ABSENT. -/
def State.quitBringup (s : State) (slot : Nat) : State :=
  match (s.link slot).state with
  | .bringup _ => (s.release slot).mapLink slot fun l => { l with state := .absent }
  | .absent | .bound | .silent => s

/-- Step 3 of a failure (R150): the pages and the mismatch count. -/
def State.dropPages (s : State) (slot : Nat) : State :=
  s.mapLinkVol slot fun v => { v with page1 := none, page2 := none, mismatches := 0 }

/-- Step 5 of a failure (R150): a DECLINE is owed, or the entry leaves the queue. -/
def State.oweDecline (s : State) (slot : Nat) (cause : FailCause) : State :=
  match cause with
  | .consistency | .timeout =>
    s.mapLinkVol slot fun v => { v with progress := some .declining, declineCause := some cause, declineAge := 0 }
  | .calendarFull | .accountState => s.leaveQueue slot

/-- A bring-up fails (R150): placement, link, figures, advisory, decline. The advisory carries tag 0 even where an UNLOAD_ACCOUNT
frame causes it, since R72 does not name it among a frame's records (DEDUCED, log entry 22). -/
def State.failBringup (s : State) (slot : Nat) (cause : FailCause) : State :=
  let v := s.linkVol slot
  ((((s.quitBringup slot).dropPages slot).hand
    ⟨0, slot, .link ((s.link slot).kitId.getD 0) (.bringupFailed cause (v.progress.getD .waiting) v.mismatches)⟩).oweDecline
      slot cause)

/-- What an unload ends in the Link Controller (R17): a bring-up in progress with its advisory, the placement, the link, the
Caller Queue entry, the held probe. A DECLINING entry has failed before and makes no second advisory (DEDUCED, log entry 23), and the
advisory carries tag 0, not the frame's (DEDUCED, log entry 22). The report-taken flag and the consecutive misses stay, since R17
does not list them (DEDUCED, log entry 24). -/
def State.endLink (s : State) (slot : Nat) : State :=
  let s := match (s.linkVol slot).progress with
    | some .declining | none => s
    | some _ => s.failBringup slot .accountState
  let s := (s.release slot).dropProbe slot
  (s.mapLink slot fun l => { l with state := .absent, kitId := none }).leaveQueue slot

/-! ### Frames handed to the Field Port (R104) -/

/-- A downlink frame is handed to the Field Port at the slot start, with the exchange record of what it asks for. Once a slot of
the CLAIMED cycle has started under QUIET the Field Port keys nothing more (R120): the frame goes no further and begins no exchange
(R112; DEDUCED, log entry 38). -/
def State.handDown (s : State) (f : DownFrame) (e : Exchange) : State :=
  if s.fp.quieted then s
  else { s with fp := { s.fp with downlink := .handed f }, lc := { s.lc with exchange := some e } }

/-! ### Bring-up exchanges in free cells (R133, R140, R144, R151) -/

/-- The first INVITE of an entry (R140) sets the entry's start cycle, the progress INVITED and, for a link ABSENT, the link's
BRINGUP. -/
def State.beginBringup (s : State) (slot : Nat) : State :=
  ((s.mapCaller slot fun c => { c with startCycle := some s.fp.cycle }).mapLinkVol slot fun v =>
    { v with progress := some .invited }).mapLink slot fun l =>
      if l.state = .absent then { l with state := .bringup .invited } else l

/-- INVITE for a page (R140). -/
def State.sendInvite (s : State) (c : Caller) (page : Nat) : State :=
  (if c.startCycle.isNone then s.beginBringup c.slot else s).handDown (inviteFrame c.kitId page) ⟨.invite page, c.slot, c.kitId⟩

/-- The allocation's start exponent for an entry (R123): page 2's preference, else the node default. -/
def State.offerStart (s : State) (v : LinkVolatile) (p1 : Page1) : Nat :=
  startExponent p1.figures.minExponent p1.figures.maxExponent
    (match v.page2 with
     | some p2 => p2.preferred
     | none => s.ret.config.defaultExponent)

/-- The dose an OFFER carries (R144): of the plan the account names. -/
def State.offerDose (s : State) (slot : Nat) : Nat :=
  match s.account slot with
  | some a => (s.planOf a).dose
  | none => 0

/-- What an allocation does to a held probe (R160): a renewal's, by which the link leaves the state BOUND or SILENT (R152), drops
it; any other leaves it held. `former` is the link's state before the allocation. -/
def State.allocateProbe (s : State) (slot : Nat) (former : LinkState) : State :=
  match former with
  | .bound | .silent => s.dropProbe slot
  | .absent | .bringup _ => s

/-- OFFER (R123, R144): the former placement is released, the first free placement taken, and by a renewal's allocation a held
probe dropped (R160). With none found the bring-up fails CALENDAR_FULL, the link is left ABSENT (R123), and its DECLINE is sent in
the same slot. A probe held over such a failure stays held, through a later first bring-up too (DEDUCED, log entry 27). -/
def State.sendOffer (s : State) (c : Caller) (p1 : Page1) : State :=
  let start := s.offerStart (s.linkVol c.slot) p1
  let former := (s.link c.slot).state
  let s := s.release c.slot
  match s.findPlacement start p1.figures.maxExponent with
  | some p =>
    let s := (s.fillCells p (some c.slot)).mapLink c.slot fun l =>
      { l with placement := some p, state := .bringup .offered }
    let s := s.mapLinkVol c.slot fun v => { v with progress := some .offered }
    let s := s.allocateProbe c.slot former
    s.handDown (offerFrame c.kitId c.slot p s.fp.idInEffect (s.offerDose c.slot)) ⟨.offer, c.slot, c.kitId⟩
  | none =>
    let s := s.handDown (declineFrame c.kitId .calendarFull) ⟨.decline, c.slot, c.kitId⟩
    let s := s.mapLink c.slot fun l => { l with state := .absent }
    s.failBringup c.slot .calendarFull

/-- The DECLINE of a DECLINING entry (R151): once handed over, the entry leaves the queue. -/
def State.sendDecline (s : State) (c : Caller) : State :=
  let cause := (s.linkVol c.slot).declineCause.getD .timeout
  (s.handDown (declineFrame c.kitId cause) ⟨.decline, c.slot, c.kitId⟩).leaveQueue c.slot

/-- An entry's next exchange (R140), with its exchange mark set (R133). -/
def State.serveCaller (s : State) (c : Caller) : State :=
  let v := s.linkVol c.slot
  let s := s.mapCaller c.slot fun c => { c with mark := true }
  match v.progress with
  | some .declining => s.sendDecline c
  | some .waiting => s.sendInvite c 1
  | some .invited | some .offered =>
    match v.page1 with
    | some p1 => s.sendOffer c p1
    | none => s.sendInvite c 1
  | some .page2 =>
    match v.page1, v.page2 with
    | some p1, some _ => s.sendOffer c p1
    | _, none => s.sendInvite c 2
    | none, some _ => s.sendInvite c 1
  | some .confirmed | none => s

/-- A free cell's service (R133): the first entry not at CONFIRMED and without an exchange mark, if any. -/
def State.serveFreeCell (s : State) : State :=
  match s.lc.callers.find? fun c => !c.mark && (s.linkVol c.slot).progress != some .confirmed with
  | some c => s.serveCaller c
  | none => s

/-! ### Wakes (R126, R127, R132) -/

/-- A POLL wake (R127): the poll request, then the POLL with the carried set kept. -/
def State.startPoll (s : State) (slot : Nat) : State :=
  let kitId := (s.link slot).kitId.getD 0
  let (s, i) := s.pollRequest slot kitId
  s.handDown (pollFrame slot (s.linkVol slot).reportTaken i) ⟨.poll i, slot, kitId⟩

/-- A wake of a BOUND or SILENT kit (R127): a PROBE when one is held, else a POLL. -/
def State.startWake (s : State) (slot : Nat) : State :=
  match (s.linkVol slot).probe with
  | some p => s.handDown (probeFrame slot p) ⟨.probe (some p), slot, (s.link slot).kitId.getD 0⟩
  | none => s.startPoll slot

/-- The use of data slot `n` (R126): nothing unless the cycle is CLAIMED and the slot started under RUN or DRAIN. -/
def State.useDataSlot (s : State) (n : Nat) : State :=
  if s.fp.status = .claimed ∧ s.fp.effective ≠ .quiet then
    match s.cell (s.fp.cycle % 64) n with
    | none => s.serveFreeCell
    | some slot =>
      match (s.link slot).state with
      | .bound | .silent => s.startWake slot
      | .bringup .confirmed => s.startPoll slot
      | .bringup .offered | .bringup .invited | .bringup .page2 | .absent => s.serveFreeCell
  else s

/-! ### Wakes judged (R128 to R131, R148, R164) -/

/-- An outcome appended to the wake history, at most 8 long (R131). -/
def appendWake (h : List WakeOutcome) (o : WakeOutcome) : List WakeOutcome := (h ++ [o]).drop (h.length + 1 - 8)

/-- The bind on a link at CONFIRMED (R148 steps 2 to 5). -/
def State.bindLink (s : State) (slot kitId : Nat) : State :=
  let cycles := match s.caller slot with
    | some c => (s.fp.cycle + 65536 - c.startCycle.getD s.fp.cycle) % 65536
    | none => 0
  let s := s.mapLink slot fun l => { l with state := .bound }
  let s := s.setAccount slot ((s.account slot).map Account.bind)
  let s := s.hand ⟨0, slot, .link kitId (.bound ((s.link slot).placement.getD default) cycles)⟩
  s.leaveQueue slot

/-- A HIT, steps 1 and 2 (R129): history and counts, then a SILENT link resumes. -/
def State.hitCounts (s : State) (slot kitId : Nat) : State :=
  let l := s.link slot
  let s := s.mapLink slot fun l => { l with history := appendWake l.history .hit, misses := 0 }
  let s := s.mapLinkVol slot fun v => { v with goodFrames := satInc 65535 v.goodFrames }
  if l.state = .silent then
    (s.mapLink slot fun l => { l with state := .bound }).hand ⟨0, slot, .link kitId (.resumed l.misses)⟩
  else s

/-- A HIT of a POLL wake, step 3 (R129, R142, R148): the delivery, the report-taken flag, a held page 1 overtaken, and the bind
of a kit at CONFIRMED. DEDUCED (log entry 39), unsafe: the report of a kit whose bring-up at CONFIRMED a FIELD_RESET abandoned in
the same slot is delivered and reconciled too, and binds nothing. -/
def State.hitReport (s : State) (slot kitId : Nat) (carried : InstructionSet) (payload : List Byte) : State :=
  let confirmed := (s.link slot).state == .bringup .confirmed
  let (s, taken) := s.deliver slot kitId (KitReport.read payload) carried
  let s := s.mapLinkVol slot fun v =>
    { v with reportTaken := taken, page1 := if taken then v.page1.map fun p => { p with overtaken := true } else v.page1 }
  if confirmed then s.bindLink slot kitId else s

/-- The number of differing bytes and the index of the first, between an echo and the true pattern (R164). -/
def patternDifference (echo pattern : List Byte) : Nat × Nat :=
  let diffs := (List.range pattern.length).filter fun i => echo.getD i 0 != pattern.getD i 0
  (diffs.length, diffs.headD 0)

/-- The result of a probe wake that is a HIT (R164). -/
def probeOutcome (p : Probe) (echo : List Byte) (kitCount nodeCount : Nat) : ProbeOutcome :=
  let (d, i) := patternDifference echo (probePattern p.seed)
  if d = 0 then
    if kitCount = p.forced then .pass kitCount nodeCount else .decodeMismatch kitCount nodeCount
  else .patternMismatch kitCount nodeCount d i

/-- A judged probe wake ends the probe with its PROBE_RESULT (R164); a probe dropped during the slot gives no second one. -/
def State.endProbe (s : State) (slot kitId : Nat) (p : Option Probe) (r : Probe → ProbeOutcome) : State :=
  match p with
  | none => s
  | some p =>
    (s.mapLinkVol slot fun v => { v with probe := none }).hand ⟨p.tag, slot, .probeResult kitId p (r p) s.fp.cycle⟩

/-- The history and counts of a MISS, and the report-taken flag for a POLL wake (R130). -/
def State.missCounts (s : State) (slot : Nat) (isPoll : Bool) : State :=
  (s.mapLink slot fun l => { l with history := appendWake l.history .miss, misses := satInc 255 l.misses }).mapLinkVol slot
    fun v => { v with missedWakes := satInc 65535 v.missedWakes, reportTaken := v.reportTaken && !isPoll }

/-- The silence test of a BOUND link (R130). -/
def State.silenceTest (s : State) (slot kitId : Nat) : State :=
  let l := s.link slot
  if l.state = .bound ∧ s.ret.config.silenceLimit ≤ l.misses then
    (s.mapLink slot fun l => { l with state := .silent }).hand ⟨0, slot, .link kitId (.silent l.misses)⟩
  else s

/-- A MISS (R130): history and counts, the report-taken flag for a POLL wake, and the silence test of a BOUND link. -/
def State.miss (s : State) (slot kitId : Nat) (isPoll : Bool) : State :=
  (s.missCounts slot isPoll).silenceTest slot kitId

/-- The kit's corrected count in the header flags of an ECHO: bits 3 to 1 (12). -/
def echoCount (flags : Byte) : Nat := flags.toNat / 2 % 8

/-- Whether an exchange is a POLL. -/
def ExchangeKind.isPoll : ExchangeKind → Bool
  | .poll _ => true
  | .probe _ | .invite _ | .offer | .decline => false

/-- Whether a record is attributed to the polled kit (R128): the kind the wake asked for, from the kit's short address. -/
def Arrival.attributed (r : Arrival) (slot : Nat) (isPoll : Bool) : Bool :=
  r.kind == (if isPoll then .report else .echo) && r.address == slot

/-- The corrected blocks of an attributed record added to the kit's count (R128, R154). -/
def State.addCorrected (s : State) (slot : Nat) (n : Nat) : State :=
  s.mapLinkVol slot fun v => { v with correctedBlocks := min (v.correctedBlocks + n) 65535 }

/-- A wake judged a HIT by a record with good payload (R129). -/
def State.judgeHit (s : State) (slot kitId : Nat) (kind : ExchangeKind) (r : Arrival) (payload : List Byte) : State :=
  match kind with
  | .poll carried => (s.hitCounts slot kitId).hitReport slot kitId carried payload
  | .probe p => (s.hitCounts slot kitId).endProbe slot kitId p fun p => probeOutcome p payload (echoCount r.flags) r.corrected
  | .invite _ | .offer | .decline => s.hitCounts slot kitId

/-- A wake judged a MISS (R130, R164). -/
def State.judgeMiss (s : State) (slot kitId : Nat) (kind : ExchangeKind) : State :=
  match kind with
  | .probe p => (s.miss slot kitId false).endProbe slot kitId p fun _ => .noEcho
  | .poll _ | .invite _ | .offer | .decline => s.miss slot kitId kind.isPoll

/-- A payload failure of an attributed record (R128). -/
def State.countFailed (s : State) (slot : Nat) : State :=
  s.mapLinkVol slot fun v => { v with failedFrames := satInc 65535 v.failedFrames }

/-- A wake judged by its first outcome (R128): `arrival` is the first-of-exchange record, or none for a no-reply indication.
DEDUCED (log entry 39), unsafe: the wake of a kit whose bring-up at CONFIRMED a FIELD_RESET abandoned in the same slot is judged
as any other. -/
def State.judgeWake (s : State) (slot kitId : Nat) (kind : ExchangeKind) (arrival : Option Arrival) : State :=
  match arrival with
  | none => s.judgeMiss slot kitId kind
  | some r =>
    if r.attributed slot kind.isPoll then
      match r.payload with
      | some payload => (s.addCorrected slot r.corrected).judgeHit slot kitId kind r payload
      | none => ((s.addCorrected slot r.corrected).countFailed slot).judgeMiss slot kitId kind
    else s.judgeMiss slot kitId kind

/-! ### Bring-up replies (R141, R142, R145) -/

/-- A taken ABILITY page 1 is held (R142); with its next-page flag set the progress becomes PAGE2. -/
def State.takePage1 (s : State) (slot : Nat) (p : Page1) : State :=
  let s := s.mapLinkVol slot fun v => { v with page1 := some p, progress := if p.nextPage then some .page2 else v.progress }
  if p.nextPage then
    s.mapLink slot fun l => if l.state = .bringup .invited then { l with state := .bringup .page2 } else l
  else s

/-- Whether a CONFIRM equals what the node holds (R145): the placement offered, and page 1. -/
def ConfirmPayload.agrees (c : ConfirmPayload) (slot : Nat) (offered : Option Placement) (p1 : Page1) : Bool :=
  c.address == slot && some c.placement == offered && c.kitId == p1.kitId && c.figures == p1.figures
    && c.nextPage == p1.nextPage && c.meter == p1.meter && c.applied == p1.applied && c.remaining == p1.remaining

/-- A CONFIRM equal in every field (R145): CONFIRMED, the figures written, report-taken cleared, the confirmation delivery. -/
def State.confirmMatch (s : State) (slot : Nat) (p1 : Page1) : State :=
  let events := ((s.linkVol slot).page2.map Page2.events).getD {}
  let s := s.mapLinkVol slot fun v => { v with progress := some .confirmed, reportTaken := false }
  let s := s.mapLink slot fun l => { l with state := .bringup .confirmed, figures := some p1.figures }
  s.confirmDelivery slot p1 events

/-- A CONFIRM that differs (R145): the placement released and the link back at INVITED, without pages; or, at the third mismatch,
failure with cause CONSISTENCY, which makes the link ABSENT (R150). The failure's advisory carries the progress and the count as
they stood when the CONFIRM came (DEDUCED, log entry 26). -/
def State.confirmMismatch (s : State) (slot : Nat) : State :=
  let s := (s.release slot).mapLink slot fun l => { l with state := .bringup .invited }
  if 2 ≤ (s.linkVol slot).mismatches then s.failBringup slot .consistency
  else
    s.mapLinkVol slot fun v =>
      { v with progress := some .invited, page1 := none, page2 := none, mismatches := v.mismatches + 1 }

/-- The reply to a bring-up exchange (R141): taken, or a lost exchange that changes nothing. -/
def State.bringupReply (s : State) (slot kitId : Nat) (kind : ExchangeKind) (r : Arrival) : State :=
  match s.caller slot, r.payload with
  | some c, some payload =>
    if c.kitId = kitId ∧ r.address = 0 then
      match kind, r.kind with
      | .invite 1, .ability =>
        let p := Page1.read payload
        if byteAt payload 0 = 1 ∧ p.kitId = kitId ∧ p.inRange then s.takePage1 slot p else s
      | .invite 2, .ability =>
        let p := Page2.read payload
        if byteAt payload 0 = 2 ∧ field payload 1 4 = kitId ∧ p.preferred ≤ 6 then
          s.mapLinkVol slot fun v => { v with page2 := some p }
        else s
      | .offer, .confirm =>
        match (s.linkVol slot).page1 with
        | some p1 =>
          if (ConfirmPayload.read payload).agrees slot (s.link slot).placement p1 then s.confirmMatch slot p1
          else s.confirmMismatch slot
        | none => s
      | _, _ => s
    else s
  | _, _ => s

/-- The outcome of the slot's exchange reaches the Link Controller (R116, R128, R141): the exchange record ends with it. -/
def State.exchangeOutcome (s : State) (arrival : Option Arrival) : State :=
  match s.lc.exchange with
  | none => s
  | some e =>
    let s := { s with lc := { s.lc with exchange := none } }
    match e.kind, arrival with
    | .poll _, _ | .probe _, _ => s.judgeWake e.slot e.kitId e.kind arrival
    | .invite _, some r | .offer, some r => s.bringupReply e.slot e.kitId e.kind r
    | .invite _, none | .offer, none | .decline, _ => s

/-! ### Calls (R134, R136) -/

/-- A CALL record with good payload is taken (R134): `kitId` and `urgency` are its payload's. -/
def State.takeCall (s : State) (kitId urgency : Nat) : State :=
  match s.slotOfKit kitId with
  | none => (s.bump .unknownCalls).hand ⟨0, 0, .unknownKit kitId urgency⟩
  | some slot =>
    match s.lc.callers.find? fun c => c.kitId == kitId with
    | some c =>
      if urgency < c.urgency then
        s.setCallers (insertCaller { c with urgency := urgency } (s.lc.callers.filter fun d => d.kitId != kitId))
      else s
    | none =>
      if s.lc.callers.length < 8 then
        let s := { s with lc := { s.lc with
          callers := insertCaller ⟨kitId, slot, urgency, s.lc.nextArrival, none, false⟩ s.lc.callers
          nextArrival := s.lc.nextArrival + 1 } }
        (s.mapLink slot fun l => { l with kitId := some kitId }).mapLinkVol slot fun v =>
          { v.clearBringup with progress := some .waiting }
      else (s.bump .callsDropped).raise .callerOverflow

/-! ### Cycle starts (R133, R149, R151) -/

/-- The decline age of a DECLINING entry is tested and then raised; an entry found at 1 leaves the queue (R151). -/
def State.ageDecline (s : State) (c : Caller) : State :=
  if (s.linkVol c.slot).progress = some .declining then
    if 1 ≤ (s.linkVol c.slot).declineAge then s.leaveQueue c.slot
    else s.mapLinkVol c.slot fun v => { v with declineAge := v.declineAge + 1 }
  else s

/-- The bring-up timer of an entry (R149). -/
def State.timeBringup (s : State) (c : Caller) : State :=
  match c.startCycle, (s.linkVol c.slot).progress with
  | some start, some progress =>
    if progress ≠ .declining ∧ s.ret.config.bringupLimit ≤ (s.fp.cycle + 65536 - start) % 65536 then
      s.failBringup c.slot .timeout
    else s
  | _, _ => s

/-- The Link Controller at a cycle start: exchange marks cleared (R133), DECLINING entries aged (R151), then the timers tested
(R149), so that an entry that times out here is not aged here. -/
def State.linkCycleStart (s : State) : State :=
  let s := s.setCallers (s.lc.callers.map fun c => { c with mark := false })
  let s := s.lc.callers.foldl State.ageDecline s
  s.lc.callers.foldl State.timeBringup s

end Sys2Proof.Machine
end

