-- ==== Sys2Proof/Machine/Classifier.lean ====
section
/-!
DEFINITION. The Frame Classifier (04): the check stages, refusals and report modes, the taking of a frame, and the handlers it
performs itself (LOAD_DISPOSITION, DISCARD) with the outcome of a frame that reaches no named handler or subcommand.
-/

namespace Sys2Proof.Machine

/-! ### Refusals (R85, R88) -/

/-- A CONTENT refusal as a handler states it (R83): reason, table, index, and figures where its chapter requires them. -/
structure Reject where
  reason : Reason
  table : TableId
  index : Nat
  figures : Option AccountFigures
  deriving DecidableEq, Repr

/-- A CONTENT refusal without figures. -/
def reject {α : Type} (reason : Reason) (table : TableId) (index : Nat) : Except Reject α := .error ⟨reason, table, index, none⟩

/-- The refusal of a payload length that fits no layout (R83): table NONE, index 0. -/
def rejectLength {α : Type} : Except Reject α := reject .length .none 0

/-- The LENGTH refusal of a handler whose chapter puts the account's figures on every refusal (R32, R40): table NONE, index 0
(R83), with the figures. -/
def rejectLengthWith {α : Type} (figures : AccountFigures) : Except Reject α := .error ⟨.length, .none, 0, some figures⟩

/-- The REFUSAL record of a frame (R85). -/
def refusalRecord (f : RxFrame) (stage : Stage) (reason : Reason) (table : TableId) (index : Nat)
    (figures : Option AccountFigures := none) : Report :=
  ⟨f.tag, f.slot, .refusal ⟨stage, reason, table, index, some f.cls, figures⟩⟩

/-- A refusal at AUTHORITY, TARGET or CONTENT is handed over under ALL and REFUSALS_ONLY and suppressed under SILENT (R88). -/
def State.handRefusal (s : State) (mode : ReportMode) (r : Report) : State :=
  match mode with
  | .all | .refusalsOnly => s.hand r
  | .silent => s

/-! ### The first four stages (R77 to R82) -/

/-- The target a handler requires (R73). -/
inductive TargetKind where
  | node | account | nodeOrAccount | any
  deriving DecidableEq, Repr

/-- The target kinds of the handler table (R73). -/
def Handler.target : Handler → TargetKind
  | .nodeControl | .loadDisposition | .setTime | .loadPlan | .unloadPlan | .readPlan => .node
  | .readCounters => .nodeOrAccount
  | .loadAccount | .unloadAccount | .setAccountState | .adjustCredit | .applyVoucher | .readAccount | .relayToKit
  | .probeKit => .account
  | .discard => .any

/-- Whether the frame names an account through its handler: a handler of kind account, or READ_COUNTERS with a slot (R81). -/
def namesAccount (h : Handler) (slot : Nat) : Bool :=
  match h.target with
  | .account => true
  | .nodeOrAccount => slot != 0
  | .node | .any => false

/-- Whether the slot index fits the target kind (R81). -/
def slotFits (h : Handler) (slot : Nat) : Bool :=
  match h.target with
  | .node => slot == 0
  | .account => decide (1 ≤ slot ∧ slot ≤ 384)
  | .nodeOrAccount | .any => decide (slot ≤ 384)

/-- The TARGET stage (R81, R82): the reason of the first check that fails, none when all pass. -/
def targetCheck (h : Handler) (f : RxFrame) (s : State) : Option Reason :=
  if !slotFits h f.slot then some .slotKind
  else if !namesAccount h f.slot then none
  else if f.destination = 65535 then some .broadcastAccount
  else
    match h, s.account f.slot with
    | .loadAccount, some _ => some .accountPresent
    | .loadAccount, none => none
    | _, none => some .accountEmpty
    | _, some a =>
      if f.count < 4 then some .noKitId
      else if f.kitId ≠ a.kitId then some .kitMismatch
      else none

/-- The outcome of the first four stages. -/
inductive Screened where
  /-- Dropped as foreign at HEADER (R78). -/
  | foreign
  /-- Refused at HEADER or DISPOSITION: handed over whatever the mode (R78, R79). -/
  | refused (r : Report)
  /-- Refused at AUTHORITY or TARGET under the entry's report mode (R80 to R82, R88). -/
  | refusedBy (mode : ReportMode) (r : Report)
  /-- Passed: the entry read at DISPOSITION governs the rest (R79). -/
  | passed (e : Entry)
  deriving DecidableEq, Repr

/-- HEADER, DISPOSITION, AUTHORITY and TARGET in order; the first stage that fails decides (R77). -/
def screen (f : RxFrame) (s : State) : Screened :=
  if f.destination ≠ s.fp.idInEffect ∧ f.destination ≠ 65535 then .foreign
  else if f.statedLength ≠ f.count ∨ 48 < f.statedLength then .refused (refusalRecord f .header .headerLength .none f.count)
  else if 384 < f.slot then .refused (refusalRecord f .header .slotRange .none f.slot)
  else
    match if f.cls < s.ret.limit then s.entry f.cls else none with
    | none => .refused (refusalRecord f .disposition .noDisposition .disposition f.cls)
    | some e =>
      if e.ceiling < f.authority then .refusedBy e.mode (refusalRecord f .authority .noReason .disposition f.cls)
      else
        match targetCheck e.handler f s with
        | some r => .refusedBy e.mode (refusalRecord f .target r .account f.slot)
        | none => .passed e

/-! ### Taking a frame (R72, R77, R83) -/

/-- A handler: given the entry's report mode and the frame, the CONTENT refusal, or the state after it has been applied. -/
abbrev HandlerAction := ReportMode → RxFrame → State → Except Reject State

/-- The frame in hand classified and handled (R77, R87): what happens to the node but for the receive queue entry. -/
def classify (action : HandlerAction) (f : RxFrame) (s : State) : State :=
  match screen f s with
  | .foreign => s.bump .foreignTrunk
  | .refused r => s.hand r
  | .refusedBy mode r => s.handRefusal mode r
  | .passed e =>
    match action e.mode f s with
    | .error r => s.handRefusal e.mode (refusalRecord f .content r.reason r.table r.index r.figures)
    | .ok s' => s'

/-- The receive queue replaced. -/
def State.setRxQueue (s : State) (q : List RxFrame) : State := { s with tp := { s.tp with queue := q } }

/-- The Classifier takes the oldest frame, which frees its entry (R72), if it is one the command stands for. With no such
frame, or without the main supply, there is nothing to take (log entries 2 and 4). -/
def State.takeFrame (s : State) (admits : RxFrame → State → Bool) (action : HandlerAction) : State :=
  match s.tp.queue with
  | [] => s
  | f :: rest => if s.powered && admits f s then classify action f (s.setRxQueue rest) else s

/-- Whether the Disposition Table's entry for the frame's class names a handler (DESIGN CHOICE, log entry 4). -/
def namesHandler (h : Handler) (f : RxFrame) (s : State) : Bool :=
  match s.entry f.cls with
  | some e => e.handler == h
  | none => false

/-- Whether the frame is a NODE_CONTROL frame with a subcommand (R178). -/
def namesNodeCommand (c : NodeCommand) (f : RxFrame) (s : State) : Bool :=
  namesHandler .nodeControl f s && f.nodeCommand == some c

/-- Whether the frame is a SET_ACCOUNT_STATE frame with a subcommand (R9). -/
def namesAccountCommand (c : AccountCommand) (f : RxFrame) (s : State) : Bool :=
  namesHandler .setAccountState f s && f.accountCommand == some c

/-- Whether the frame reaches no named handler or subcommand: dropped as foreign, refused HEADER or DISPOSITION, or of a
NODE_CONTROL or SET_ACCOUNT_STATE class without a known subcommand. -/
def namesNothing (f : RxFrame) (s : State) : Bool :=
  match screen f s with
  | .foreign | .refused _ => true
  | .refusedBy _ _ | .passed _ =>
    (namesHandler .nodeControl f s && f.nodeCommand.isNone) || (namesHandler .setAccountState f s && f.accountCommand.isNone)

/-- What an account handler does on the account its frame names. The TARGET stage has found the account (R82). -/
def withAccount (f : RxFrame) (s : State) (act : Account → Except Reject State) : Except Reject State :=
  match s.account f.slot with
  | some a => act a
  | none => .ok s

/-! ### Unknown subcommands (R9, R83, R178) -/

/-- The CONTENT refusal of a frame without a known subcommand: SUBCOMMAND for NODE_CONTROL (R178); for SET_ACCOUNT_STATE first
the LENGTH check (R83), then SUBCOMMAND (R9). -/
def actUnknown : HandlerAction := fun _ f s =>
  if namesHandler .setAccountState f s then
    if f.count ≠ 6 then rejectLength else reject .subcommand .account f.slot
  else reject .subcommand .none 0

/-- FRAME_TAKEN (R72): the oldest frame is dropped as foreign or refused before it reaches a named handler or subcommand. -/
def execFrameTaken (s : State) : Host.Outcome State Fault Refusal := .next (s.takeFrame namesNothing actUnknown)

/-! ### LOAD_DISPOSITION (R75, R76) -/

/-- The entry a LOAD_DISPOSITION payload names; none when a field is outside its range (R75, check 4). -/
def namedEntry (p : List Byte) : Option Entry :=
  match Handler.ofCode (byteAt p 2), ReportMode.ofCode (byteAt p 4) with
  | some h, some m => if byteAt p 3 ≤ 3 then some ⟨h, byteAt p 3, m, false⟩ else none
  | _, _ => none

/-- The entry as a LOAD_DISPOSITION payload would leave it: none with present clear (R76), and none where a field is wrong. -/
def writtenEntry (p : List Byte) : Option Entry := if byteAt p 1 = 1 then namedEntry p else none

/-- Whether an entry would put node control or the table's own rewriting at a weaker authority (R75, check 5). -/
def Entry.weakensControl (e : Entry) : Bool := (e.handler == .nodeControl || e.handler == .loadDisposition) && e.ceiling != 0

/-- The limit of a LOAD_DISPOSITION payload; absent in the shorter layout (12). -/
def RxFrame.namedLimit (f : RxFrame) : Option Nat := if f.count = 6 then some (byteAt f.payload 5) else none

/-- The entry and the limit written as one action (R76). -/
def State.writeDisposition (s : State) (cls : Nat) (e : Option Entry) (limit : Option Nat) : State :=
  { s.setEntry cls e with ret := { (s.setEntry cls e).ret with limit := limit.getD s.ret.limit } }

/-- The handler LOAD_DISPOSITION (R75, R76). A present flag other than 0 and 1 fits no layout (R188). -/
def actLoadDisposition : HandlerAction := fun mode f s =>
  let cls := byteAt f.payload 0
  let present := byteAt f.payload 1
  let entry := writtenEntry f.payload
  if (f.count ≠ 5 ∧ f.count ≠ 6) ∨ 1 < present then rejectLength
  else if 63 < cls then reject .classRange .disposition cls
  else if ((s.entry cls).map Entry.fixed).getD false then reject .fixedEntry .disposition cls
  else if present = 1 ∧ entry.isNone then reject .entryFields .disposition cls
  else if (entry.map Entry.weakensControl).getD false then reject .controlCeiling .disposition cls
  else if (f.namedLimit.map fun l => decide (l < 4 ∨ 64 < l)).getD false then
    reject .limitRange .disposition (f.namedLimit.getD 0)
  else
    let s := s.writeDisposition cls entry f.namedLimit
    .ok (s.handReceipt mode f.tag f.slot (.loadDisposition cls entry s.ret.limit))

/-- LOAD_DISPOSITION (R75). -/
def execLoadDisposition (s : State) : Host.Outcome State Fault Refusal :=
  .next (s.takeFrame (namesHandler .loadDisposition) actLoadDisposition)

/-! ### DISCARD (R84) -/

/-- The handler DISCARD: no checks and no change, a RECEIPT under ALL. -/
def actDiscard : HandlerAction := fun mode f s => .ok (s.handReceipt mode f.tag f.slot (.discard f.cls f.count))

/-- DISCARD (R84). -/
def execDiscard (s : State) : Host.Outcome State Fault Refusal := .next (s.takeFrame (namesHandler .discard) actDiscard)

end Sys2Proof.Machine
end

