-- ==== Sys2Proof/Machine/Accounts.lean ====
section
/-!
DEFINITION. The account handlers of 01: LOAD_ACCOUNT, UNLOAD_ACCOUNT, READ_ACCOUNT and the four SET_ACCOUNT_STATE subcommands,
with the voucher window (R19, R20) and the period roll (R21) that the record defines.
-/

namespace Sys2Proof.Machine

/-! ### The voucher window (R19, R20) -/

/-- The verdicts of the window test (R19). -/
inductive Verdict where
  | accept | duplicate | stale
  deriving DecidableEq, Repr

/-- The mark at position `j`, 1 to 16. -/
def Window.mark (w : Window) (j : Nat) : Bool := w.marks.getLsbD (16 - j)

/-- The window test (R19); the window is absent or present. -/
def windowTest (w : Option Window) (s : Nat) : Verdict :=
  match w with
  | none => .accept
  | some w =>
    if w.h < s then .accept
    else if s = w.h then .duplicate
    else if w.h ≤ s + 16 then (if w.mark (w.h - s) then .duplicate else .accept)
    else .stale

/-- The marks with position `j` set. -/
def setMark (marks : BitVec 16) (j : Nat) : BitVec 16 := marks ||| (1#16 <<< (16 - j))

/-- The window after an accepted sequence number is applied (R20). -/
def windowAccept (w : Option Window) (s : Nat) : Window :=
  match w with
  | none => ⟨s, 0⟩
  | some w =>
    if w.h < s then
      let d := s - w.h
      ⟨s, if d ≤ 16 then setMark (w.marks >>> d) d else 0⟩
    else ⟨w.h, setMark w.marks (w.h - s)⟩

/-! ### The period roll (R21) -/

/-- Whether the period roll takes place (R21), for period length `L` in days. -/
def rollDue (clock : Clock) (L periodStart : Nat) : Bool :=
  clock.isSet && decide (0 < L) && decide (periodStart + L ≤ clock.day)

/-- The period start after a roll (R21). -/
def rolledStart (today L periodStart : Nat) : Nat := periodStart + (today - periodStart) / L * L

/-- The period-expired indicator of an IMAGE (R18). -/
def State.periodExpired (s : State) (a : Account) : Bool := rollDue s.ret.clock (s.planOf a).periodLength a.periodStart

/-! ### LOAD_ACCOUNT (R14, R15) -/

/-- The record of a fresh account (R15). -/
def AccountPayload.account (p : AccountPayload) (clock : Clock) : Account where
  state := .loaded
  kitId := p.kitId
  plan := p.plan
  balance := p.balance
  allowance := 0
  arrears := p.arrears
  carry := 0
  periodPurchase := 0
  periodStart := p.periodStart.getD (if clock.isSet then clock.day else 0)
  window := p.windowBase.map fun h => ⟨h, 0xFFFF⟩
  q := 0
  pendingGrant := none
  withdrawn := none
  revokeDue := false
  lockNoticeDue := false
  relay := none
  baseline := p.baseline
  rebaseDue := false
  latch := {}
  cause := none
  boundOnce := false

/-- The per-kit quality counters zeroed (R15, R154). -/
def LinkVolatile.zeroCounters (v : LinkVolatile) : LinkVolatile :=
  { v with goodFrames := 0, missedWakes := 0, failedFrames := 0, correctedBlocks := 0 }

/-- The handler LOAD_ACCOUNT: the checks of R14 in order, the record of R15, the plan's use count, the Link Controller's zeroing
of counters and wake history (R15) and clearing of the confirmed figures (R139), and the RECEIPT. A plan number above 15
names no present plan (DEDUCED, log entry 18). The link's consecutive misses and report-taken flag stay (DEDUCED, log entry 24). -/
def actLoadAccount : HandlerAction := fun mode f s =>
  let p := AccountPayload.read f.payload
  if f.count ≠ 19 then rejectLength
  else if p.kitId = 0 then reject .kitId .account f.slot
  else
    match s.plan p.plan with
    | none => reject .noPlan .plan p.plan
    | some plan =>
      if (s.slotOfKit p.kitId).isSome then reject .duplicateKit .account f.slot
      else if p.balance ≠ 0 ∧ p.arrears ≠ 0 then reject .balanceArrears .account f.slot
      else if plan.creditCeiling < p.balance then reject .ceiling .plan p.plan
      else
        let s := s.setAccount f.slot (some (p.account s.ret.clock))
        let s := s.mapUseCount p.plan (· + 1)
        let s := s.mapLink f.slot fun l => { l with history := [], figures := none }
        let s := s.mapLinkVol f.slot LinkVolatile.zeroCounters
        .ok (s.handReceipt mode f.tag f.slot (.loadAccount p.kitId p.plan p.balance p.arrears p.windowBase))

/-- LOAD_ACCOUNT (R14). -/
def execLoadAccount (s : State) : Host.Outcome State Fault Refusal :=
  .next (s.takeFrame (namesHandler .loadAccount) actLoadAccount)

/-! ### UNLOAD_ACCOUNT (R16, R17) -/

/-- The pending grant of an unload cancelled (R16 step 1): its amount is a return to the balance; an unsent grant steps q back
(R51; DEDUCED, log entry 15). -/
def Account.unloadPending (a : Account) : Account × List NoticeBody :=
  match a.pendingGrant with
  | none => (a, [])
  | some g =>
    let (a', ns) := a.returnToBalance g.amount
    ({ a' with pendingGrant := none, q := if g.sent then a.q else seqPred a.q }, ns)

/-- The deferred refusal of a relay payload held at an unload (R16 step 3). -/
def Account.unloadRelay (a : Account) (slot : Nat) : List Report :=
  match a.relay with
  | none => []
  | some r => [deferredRefusal slot r.tag .unloaded]

/-- The handler UNLOAD_ACCOUNT: the Link Controller's part and its records first (R17), then the steps of R16. It has no RECEIPT,
and its IMAGE is handed over whatever the report mode. -/
def actUnloadAccount : HandlerAction := fun _ f s =>
  if f.count ≠ 4 then rejectLength
  else withAccount f s fun a =>
    let s := s.endLink f.slot
    let (a', ns) := a.unloadPending
    let refusals := a.unloadRelay f.slot
    let a' := { a' with withdrawn := none, relay := none }
    let s := s.mapUseCount a.plan (· - 1)
    let image : Report := ⟨f.tag, f.slot, .image a' (s.periodExpired a')⟩
    let s := s.setAccount f.slot none
    .ok (s.handAll (noticeRecords f.tag f.slot ns ++ refusals ++ [image]))

/-- UNLOAD_ACCOUNT (R16). -/
def execUnloadAccount (s : State) : Host.Outcome State Fault Refusal :=
  .next (s.takeFrame (namesHandler .unloadAccount) actUnloadAccount)

/-! ### SET_ACCOUNT_STATE (R9 to R13) -/

/-- The RECEIPT of a SET_ACCOUNT_STATE subcommand (R9): the values after the change, with the state before. -/
def Account.stateReceipt (a : Account) (cmd : AccountCommand) (before : AccountState) : ReceiptBody :=
  .setAccountState cmd before a.state a.balance a.allowance a.arrears a.q a.plan (a.window.map Window.h)

/-- A SET_ACCOUNT_STATE subcommand applied: the account written, the RECEIPT, then any notices under the frame's tag (R7). -/
def State.applyState (s : State) (mode : ReportMode) (f : RxFrame) (cmd : AccountCommand) (before : AccountState) (a : Account)
    (ns : List NoticeBody) : State :=
  ((s.setAccount f.slot (some a)).handReceipt mode f.tag f.slot (a.stateReceipt cmd before)).handAll
    (noticeRecords f.tag f.slot ns)

/-- The argument byte of a SET_ACCOUNT_STATE payload (12). -/
def RxFrame.stateArgument (f : RxFrame) : Nat := byteAt f.payload 5

/-- The subcommand SUSPEND (R10): refused STATE in SUSPENDED and QUARANTINED, else the effects of R7. -/
def actSuspend : HandlerAction := fun mode f s =>
  if f.count ≠ 6 then rejectLength
  else withAccount f s fun a =>
    match a.state with
    | .suspended | .quarantined => reject .state .account f.slot
    | .loaded | .active | .locked =>
      let (a', ns) := a.enterHold .suspended
      .ok (s.applyState mode f .suspend a.state a' ns)

/-- SUSPEND (R10). -/
def execSuspend (s : State) : Host.Outcome State Fault Refusal :=
  .next (s.takeFrame (namesAccountCommand .suspend) actSuspend)

/-- The account after RESUME (R11); an entry to LOCKED from SUSPENDED keeps lock notice due (R11). -/
def Account.resume (a : Account) : Account :=
  if a.boundOnce then (if a.holdsCredit then a.enterActive else { a with state := .locked })
  else { a with state := .loaded }

/-- The subcommand RESUME (R11). -/
def actResume : HandlerAction := fun mode f s =>
  if f.count ≠ 6 then rejectLength
  else withAccount f s fun a =>
    match a.state with
    | .suspended => .ok (s.applyState mode f .resume a.state a.resume [])
    | .loaded | .active | .locked | .quarantined => reject .state .account f.slot

/-- RESUME (R11). -/
def execResume (s : State) : Host.Outcome State Fault Refusal :=
  .next (s.takeFrame (namesAccountCommand .resume) actResume)

/-- The account after CLEAR_QUARANTINE (R12). -/
def Account.clearQuarantine (a : Account) (rebase : Bool) : Account :=
  { a with state := .suspended, cause := none, rebaseDue := a.rebaseDue || rebase }

/-- The subcommand CLEAR_QUARANTINE (R12). A rebase option other than 0 and 1 fits no layout (R188). -/
def actClearQuarantine : HandlerAction := fun mode f s =>
  if f.count ≠ 6 ∨ 1 < f.stateArgument then rejectLength
  else withAccount f s fun a =>
    match a.state with
    | .quarantined => .ok (s.applyState mode f .clearQuarantine a.state (a.clearQuarantine (f.stateArgument == 1)) [])
    | .loaded | .active | .locked | .suspended => reject .state .account f.slot

/-- CLEAR_QUARANTINE (R12). -/
def execClearQuarantine (s : State) : Host.Outcome State Fault Refusal :=
  .next (s.takeFrame (namesAccountCommand .clearQuarantine) actClearQuarantine)

/-- The subcommand CHANGE_PLAN (R13): with the current plan's number the RECEIPT alone; else the plan field and both use counts
in one action. A number above 15 names no present plan (DEDUCED, log entry 18). -/
def actChangePlan : HandlerAction := fun mode f s =>
  if f.count ≠ 6 then rejectLength
  else withAccount f s fun a =>
    let n := f.stateArgument
    if (s.plan n).isNone then reject .noPlan .account f.slot
    else if n = a.plan then .ok (s.applyState mode f .changePlan a.state a [])
    else
      let s := (s.mapUseCount a.plan (· - 1)).mapUseCount n (· + 1)
      .ok (s.applyState mode f .changePlan a.state { a with plan := n } [])

/-- CHANGE_PLAN (R13). -/
def execChangePlan (s : State) : Host.Outcome State Fault Refusal :=
  .next (s.takeFrame (namesAccountCommand .changePlan) actChangePlan)

/-! ### READ_ACCOUNT (R18) -/

/-- The handler READ_ACCOUNT: the IMAGE as the record stands, then the clear option empties the latch. -/
def actReadAccount : HandlerAction := fun _ f s =>
  let option := byteAt f.payload 4
  if f.count ≠ 5 ∨ 1 < option then rejectLength
  else withAccount f s fun a =>
    let image : Report := ⟨f.tag, f.slot, .image a (s.periodExpired a)⟩
    let s := if option = 1 then s.setAccount f.slot (some { a with latch := {} }) else s
    .ok (s.hand image)

/-- READ_ACCOUNT (R18). -/
def execReadAccount (s : State) : Host.Outcome State Fault Refusal :=
  .next (s.takeFrame (namesHandler .readAccount) actReadAccount)

end Sys2Proof.Machine
end

