-- ==== Sys2Proof/Machine/Vouchers.lean ====
section
/-!
DEFINITION. APPLY_VOUCHER and ADJUST_CREDIT (02): the conversion of money into watt-hours by the plan of the account, and the
office's correction of an account's energy figures.
-/

namespace Sys2Proof.Machine

/-! ### The tier walk (R34) -/

/-- The tiers of a plan: each price with its ceiling, none for the last tier, whose room is unbounded (R25). -/
def Plan.tiers (p : Plan) : List (Nat × Option Nat) :=
  p.prices.mapIdx fun k price => (price, if k + 1 < p.prices.length then p.ceilings[k]? else none)

/-- What a tier walk has bought: the credit of each tier in order, the money left and the period purchase. -/
structure Walk where
  credits : List Nat
  money : Nat
  purchase : Nat
  deriving DecidableEq, Repr

/-- The tier walk over the tiers from the first to the last (R34). A tier whose ceiling the period purchase has reached before
the walk has begun buys nothing: the walk starts in the first tier whose ceiling exceeds it, or in the last. -/
def walkTiers : List (Nat × Option Nat) → Nat → Nat → Walk
  | [], money, purchase => ⟨[], money, purchase⟩
  | (price, none) :: _, money, purchase =>
    let e := money / price
    ⟨[e], money - e * price, min (purchase + e) maxWh⟩
  | (price, some ceiling) :: rest, money, purchase =>
    let room := ceiling - purchase
    let e := min room (money / price)
    let left := money - e * price
    if e = room then
      let w := walkTiers rest left (purchase + e)
      ⟨e :: w.credits, w.money, w.purchase⟩
    else ⟨[e], left, purchase + e⟩

/-- The total credit e of a walk (R34). -/
def Walk.credit (w : Walk) : Nat := w.credits.sum

/-! ### APPLY_VOUCHER (R30 to R38) -/

/-- An APPLY_VOUCHER payload read (12). -/
structure VoucherPayload where
  amount : Nat
  s : Nat
  deriving DecidableEq, Repr

/-- The amount and sequence of an APPLY_VOUCHER payload. -/
def VoucherPayload.read (bs : List Byte) : VoucherPayload := ⟨field bs 4 3, field bs 7 3⟩

/-- The working copy of a conversion at the end of its stages (R30): what the commit writes and the RECEIPT shows. -/
structure Conversion where
  rolled : Bool
  periodStart : Nat
  walk : Walk
  pay : Nat
  balance : Nat
  arrears : Nat
  deriving DecidableEq, Repr

/-- The stages 1 to 7 of a conversion (R30 to R36): the reason of the first refusal, or the working copy. -/
def Account.convert (a : Account) (p : Plan) (clock : Clock) (v : VoucherPayload) : Except Reason Conversion :=
  if v.amount = 0 ∨ 1000000 < v.amount then .error .amountRange
  else if a.state = .quarantined then .error .quarantined
  else
    match windowTest a.window v.s with
    | .duplicate => .error .duplicate
    | .stale => .error .stale
    | .accept =>
      let rolled := rollDue clock p.periodLength a.periodStart
      let start := if rolled then rolledStart clock.day p.periodLength a.periodStart else a.periodStart
      let purchase := if rolled then 0 else a.periodPurchase
      let sum := v.amount * 1000 + a.carry
      if sum < p.fee * 1000 then .error .feeShort
      else
        let w := walkTiers p.tiers (sum - p.fee * 1000) purchase
        let pay := min w.credit a.arrears
        let balance := a.balance + w.credit - pay
        if p.creditCeiling < balance then .error .ceiling
        else .ok ⟨rolled, start, w, pay, balance, a.arrears - pay⟩

/-- The commit stage (R37): the working copy, the window, and the move from LOCKED to ACTIVE with a balance above 0. -/
def Account.commitVoucher (a : Account) (v : VoucherPayload) (c : Conversion) : Account :=
  let a := { a with
    carry := c.walk.money
    periodPurchase := c.walk.purchase
    periodStart := c.periodStart
    balance := c.balance
    arrears := c.arrears
    window := some (windowAccept a.window v.s) }
  if a.state = .locked ∧ 0 < a.balance then a.enterActive else a

/-- The RECEIPT of an applied voucher (R38), on the account after the commit. -/
def Account.voucherReceipt (a : Account) (p : Plan) (v : VoucherPayload) (c : Conversion) : VoucherReceipt where
  kitId := a.kitId
  s := v.s
  amount := v.amount
  fee := p.fee
  tierCredits := c.walk.credits
  credit := c.walk.credit
  pay := c.pay
  balance := a.balance
  arrears := a.arrears
  carry := a.carry
  periodPurchase := a.periodPurchase
  rolled := c.rolled
  h := ((a.window.map Window.h).getD 0)
  state := a.state

/-- The handler APPLY_VOUCHER. Its refusals carry table ACCOUNT, the slot index and the account's figures (R32); the LENGTH
refusal carries the figures too, with table NONE and index 0 (R83; DEDUCED, log entry 17). -/
def actApplyVoucher : HandlerAction := fun mode f s =>
  withAccount f s fun a =>
    if f.count ≠ 10 then rejectLengthWith a.figures
    else
    let v := VoucherPayload.read f.payload
    let p := s.planOf a
    match a.convert p s.ret.clock v with
    | .error r => .error ⟨r, .account, f.slot, some a.figures⟩
    | .ok c =>
      let a' := a.commitVoucher v c
      .ok ((s.setAccount f.slot (some a')).handReceipt mode f.tag f.slot (.applyVoucher (a'.voucherReceipt p v c)))

/-- APPLY_VOUCHER (R30). -/
def execApplyVoucher (s : State) : Host.Outcome State Fault Refusal :=
  .next (s.takeFrame (namesHandler .applyVoucher) actApplyVoucher)

/-! ### ADJUST_CREDIT (R40 to R43) -/

/-- The working copy of an adjustment (R41, R42). -/
structure Adjustment where
  forgiven : Nat
  paid : Nat
  added : Nat
  removed : Nat
  balance : Nat
  arrears : Nat
  deriving DecidableEq, Repr

/-- Forgiveness, then the delta (R40 to R42): the reason of the first refusal, or the working copy. -/
def Account.adjust (a : Account) (p : Plan) (delta : Int) (forgiveness : Nat) : Except Reason Adjustment :=
  if maxWh < delta.natAbs then .error .amountRange
  else if a.state = .quarantined then .error .quarantined
  else
    let forgiven := min forgiveness a.arrears
    let arrears := a.arrears - forgiven
    let x := delta.natAbs
    if 0 < delta then
      let paid := min x arrears
      let balance := a.balance + (x - paid)
      if p.creditCeiling < balance then .error .ceiling
      else .ok ⟨forgiven, paid, x - paid, 0, balance, arrears - paid⟩
    else
      let removed := min x a.balance
      .ok ⟨forgiven, 0, 0, removed, a.balance - removed, arrears⟩

/-- The commit and the state test of an adjustment (R43). -/
def Account.commitAdjustment (a : Account) (j : Adjustment) : Account :=
  { a with balance := j.balance, arrears := j.arrears }.creditTest

/-- The NOTICE of a clamped removal (R42): the amount requested is |delta| of a negative delta. -/
def Adjustment.notices (j : Adjustment) (delta : Int) : List NoticeBody :=
  if delta < 0 ∧ j.removed < delta.natAbs then [.adjustClamped delta.natAbs j.removed] else []

/-- The RECEIPT of an applied adjustment (R43), on the account after the state test. -/
def Account.adjustReceipt (a : Account) (delta : Int) (j : Adjustment) : AdjustReceipt :=
  ⟨a.kitId, delta, j.forgiven, j.added, j.removed, j.paid, a.balance, a.allowance, a.arrears, a.state⟩

/-- The handler ADJUST_CREDIT. Its refusals carry B, G and R, without h (R40), the LENGTH refusal among them (DEDUCED, log entry
17); the NOTICE follows the RECEIPT under every report mode (R43). -/
def actAdjustCredit : HandlerAction := fun mode f s =>
  withAccount f s fun a =>
    if f.count ≠ 10 then rejectLengthWith { a.figures with h := none }
    else
    let delta := signed32 (field f.payload 4 4)
    match a.adjust (s.planOf a) delta (field f.payload 8 2) with
    | .error r => .error ⟨r, .account, f.slot, some { a.figures with h := none }⟩
    | .ok j =>
      let a' := a.commitAdjustment j
      let s := (s.setAccount f.slot (some a')).handReceipt mode f.tag f.slot (.adjustCredit (a'.adjustReceipt delta j))
      .ok (s.handAll (noticeRecords f.tag f.slot (j.notices delta)))

/-- ADJUST_CREDIT (R40). -/
def execAdjustCredit (s : State) : Host.Outcome State Fault Refusal :=
  .next (s.takeFrame (namesHandler .adjustCredit) actAdjustCredit)

end Sys2Proof.Machine
end

