-- ==== Sys2Proof/Machine/Plans.lean ====
section
/-!
DEFINITION. The plan handlers (02): LOAD_PLAN, UNLOAD_PLAN and READ_PLAN. The refusals of the
first two carry table PLAN and the plan number as received.
-/

namespace Sys2Proof.Machine

/-- Whether each number is greater than the one before it, and the first at least 1. -/
def ascendingFrom : Nat → List Nat → Bool
  | _, [] => true
  | low, c :: cs => decide (low < c) && ascendingFrom c cs

/-- The conditions on the fields of a LOAD_PLAN (R26). -/
def PlanPayload.fieldsOk (p : PlanPayload) : Bool :=
  decide (1 ≤ p.tierCount ∧ p.tierCount ≤ 4) && p.prices.all (fun x => decide (1 ≤ x)) && ascendingFrom 0 p.ceilings
    && decide (1 ≤ p.creditCeiling) && decide (1 ≤ p.dose) && decide (p.lowWater < p.dose) && decide (p.boostLimit ≤ 3)
    && decide (1 ≤ p.usageStep)

/-- The plan record of a LOAD_PLAN, with the use count it is to hold (R27). -/
def PlanPayload.plan (p : PlanPayload) (useCount : Nat) : Plan where
  fee := p.fee
  prices := p.prices
  ceilings := p.ceilings
  creditCeiling := p.creditCeiling
  periodLength := p.periodLength
  dose := p.dose
  lowWater := p.lowWater
  boostLimit := p.boostLimit
  arrearsLimit := p.arrearsLimit
  usageStep := p.usageStep
  useCount := useCount

/-- The handler LOAD_PLAN (R26, R27): a plan newly present starts with use count 0, a replaced one keeps its count. -/
def actLoadPlan : HandlerAction := fun mode f s =>
  let p := PlanPayload.read f.payload
  if f.count ≠ 34 then rejectLength
  else if 15 < p.number then reject .planNumber .plan p.number
  else if !p.fieldsOk then reject .planFields .plan p.number
  else
    let before := s.plan p.number
    let uses := (before.map Plan.useCount).getD 0
    let s := s.setPlan p.number (some (p.plan uses))
    .ok (s.handReceipt mode f.tag f.slot (.loadPlan p.number before.isNone uses p.creditCeiling))

/-- LOAD_PLAN (R26). -/
def execLoadPlan (s : State) : Host.Outcome State Fault Refusal :=
  .next (s.takeFrame (namesHandler .loadPlan) actLoadPlan)

/-- The handler UNLOAD_PLAN (R28). -/
def actUnloadPlan : HandlerAction := fun mode f s =>
  let n := byteAt f.payload 0
  if f.count ≠ 1 then rejectLength
  else if 15 < n then reject .planNumber .plan n
  else
    match s.plan n with
    | none => reject .noPlan .plan n
    | some p =>
      if 0 < p.useCount then reject .planInUse .plan n
      else .ok ((s.setPlan n none).handReceipt mode f.tag f.slot (.unloadPlan n))

/-- UNLOAD_PLAN (R28). -/
def execUnloadPlan (s : State) : Host.Outcome State Fault Refusal :=
  .next (s.takeFrame (namesHandler .unloadPlan) actUnloadPlan)

/-- The handler READ_PLAN (R29): a PLAN_IMAGE of a present or an absent plan, handed over under every report mode. R29 names no
table for its PLAN_NUMBER refusal, which therefore carries table NONE, index 0 (R83). -/
def actReadPlan : HandlerAction := fun _ f s =>
  let n := byteAt f.payload 0
  if f.count ≠ 1 then rejectLength
  else if 15 < n then reject .planNumber .none 0
  else .ok (s.hand ⟨f.tag, f.slot, .planImage n (s.plan n)⟩)

/-- READ_PLAN (R29). -/
def execReadPlan (s : State) : Host.Outcome State Fault Refusal :=
  .next (s.takeFrame (namesHandler .readPlan) actReadPlan)

end Sys2Proof.Machine
end

