-- ==== Sys2Proof/Machine/Services.lean ====
section
/-!
DEFINITION. The handlers that serve a kit's link: RELAY_TO_KIT (03), PROBE_KIT and READ_COUNTERS (09).
-/

namespace Sys2Proof.Machine

/-! ### RELAY_TO_KIT (R67) -/

/-- The handler RELAY_TO_KIT: the bytes after the kit id are held for the kit under the frame's tag. -/
def actRelayToKit : HandlerAction := fun mode f s =>
  withAccount f s fun a =>
    let bytes := f.payload.drop 4
    if bytes.length = 0 ∨ 24 < bytes.length then reject .relayLength .account f.slot
    else if a.relay.isSome then reject .relayBusy .account f.slot
    else
      let s := s.setAccount f.slot (some { a with relay := some ⟨bytes, f.tag, 0⟩ })
      .ok (s.handReceipt mode f.tag f.slot (.relayToKit bytes.length))

/-- RELAY_TO_KIT (R67). -/
def execRelayToKit (s : State) : Host.Outcome State Fault Refusal :=
  .next (s.takeFrame (namesHandler .relayToKit) actRelayToKit)

/-! ### PROBE_KIT (R159) -/

/-- Whether a link accepts a probe: BOUND or SILENT (R159). -/
def LinkState.probeable : LinkState → Bool
  | .bound | .silent => true
  | .absent | .bringup _ => false

/-- The handler PROBE_KIT: the seed, the forced-error count and the tag are held as the link's probe. -/
def actProbeKit : HandlerAction := fun mode f s =>
  let seed := field f.payload 4 2
  let forced := byteAt f.payload 6
  if f.count ≠ 7 then rejectLength
  else if 4 < forced then reject .probeFields .account f.slot
  else if !(s.link f.slot).state.probeable then reject .linkState .account f.slot
  else if (s.linkVol f.slot).probe.isSome then reject .probeBusy .account f.slot
  else
    let s := s.mapLinkVol f.slot fun v => { v with probe := some ⟨seed, forced, f.tag⟩ }
    .ok (s.handReceipt mode f.tag f.slot (.probeKit seed forced))

/-- PROBE_KIT (R159). -/
def execProbeKit (s : State) : Host.Outcome State Fault Refusal :=
  .next (s.takeFrame (namesHandler .probeKit) actProbeKit)

/-! ### READ_COUNTERS (R156 to R158) -/

/-- The handler READ_COUNTERS: one COUNTERS reply under every report mode, of the node's set for slot index 0 and of the kit's
link otherwise; the clear option zeroes the set read after it has been copied. -/
def actReadCounters : HandlerAction := fun _ f s =>
  if f.slot = 0 then
    let option := byteAt f.payload 0
    if f.count ≠ 1 ∨ 1 < option then rejectLength
    else
      let reply : Report := ⟨f.tag, f.slot, .nodeCounters s.counters s.fp.cycle⟩
      let s := if option = 1 then { s with counters := {} } else s
      .ok (s.hand reply)
  else
    let option := byteAt f.payload 4
    if f.count ≠ 5 ∨ 1 < option then rejectLength
    else
      let reply : Report := ⟨f.tag, f.slot, .linkCounters f.kitId (s.link f.slot) (s.linkVol f.slot)⟩
      let s := if option = 1 then s.mapLinkVol f.slot LinkVolatile.zeroCounters else s
      .ok (s.hand reply)

/-- READ_COUNTERS (R156). -/
def execReadCounters (s : State) : Host.Outcome State Fault Refusal :=
  .next (s.takeFrame (namesHandler .readCounters) actReadCounters)

end Sys2Proof.Machine
end

