-- ==== Sys2Proof/Machine/Starts.lean ====
section
/-!
DEFINITION. Node Control's starts and clock (11): the district clock, the shared start operation of R184, POWER_UP, POWER_FAIL,
RETENTION_SUPPLY_LOSS, RESET_NODE, CLOCK_SECOND and SET_TIME.
-/

namespace Sys2Proof.Machine

/-! ### The district clock (R181, R182) -/

/-- The seconds of a day. -/
def secondsOfDay : Nat := 86400

/-- A second of the time base (R181): an UNSET clock stands; the day saturates at 65,535. -/
def Clock.tick (c : Clock) : Clock :=
  if c.isSet then
    if c.second + 1 < secondsOfDay then { c with second := c.second + 1 }
    else { c with day := min (c.day + 1) 65535, second := 0 }
  else c

/-- CLOCK_SECOND (R181): the time base runs from the retention supply, with or without the main supply. -/
def execClockSecond (s : State) : Host.Outcome State Fault Refusal :=
  .next { s with ret := { s.ret with clock := s.ret.clock.tick } }

/-- The handler SET_TIME (R182). The checks' refusals carry table NONE, index 0; a force flag other than 0 and 1 fits no layout
(R188). "Force used" in the RECEIPT is the flag as the frame sets it, needed or not (DEDUCED, log entry 37). -/
def actSetTime : HandlerAction := fun mode f s =>
  let day := field f.payload 0 2
  let second := field f.payload 2 3
  let force := byteAt f.payload 5
  let was := s.ret.clock
  if f.count ≠ 6 ∨ 1 < force then rejectLength
  else if secondsOfDay ≤ second then reject .timeRange .none 0
  else if force = 1 ∧ f.authority ≠ 0 then reject .authorityForce .none 0
  else if was.isSet ∧ day < was.day ∧ force = 0 then reject .timeRegress .none 0
  else
    let s := { s with ret := { s.ret with clock := ⟨true, day, second⟩ } }
    let dayBefore := if was.isSet then was.day else 0
    let secondBefore := if was.isSet then was.second else 0
    .ok (s.handReceipt mode f.tag f.slot (.setTime was.isSet dayBefore secondBefore day second (force == 1)))

/-- SET_TIME (R182). -/
def execSetTime (s : State) : Host.Outcome State Fault Refusal :=
  .next (s.takeFrame (namesHandler .setTime) actSetTime)

/-! ### Links across a field reset or a warm start (R137, R138) -/

/-- Whether a link is in BRINGUP, at any sub-state. -/
def LinkState.inBringup : LinkState → Bool
  | .bringup _ => true
  | .absent | .bound | .silent => false

/-- The number of links whose state meets `p`. -/
def State.countLinks (s : State) (p : LinkState → Bool) : Nat := slotIndices.countP fun k => p (s.link k).state

/-- A link record when bring-ups are abandoned and bound kits silenced (R137, R138). The kit id of an ABSENT link becomes
absent. -/
def LinkRetained.silence (l : LinkRetained) : LinkRetained :=
  match l.state with
  | .bringup _ | .absent => { l with state := .absent, kitId := none }
  | .bound => { l with state := .silent }
  | .silent => l

/-- A link in BRINGUP gives up its placement (R124). -/
def State.releaseBringup (s : State) (slot : Nat) : State :=
  if (s.link slot).state.inBringup then s.release slot else s

/-- Every bring-up abandoned with its placement released, every BOUND link made SILENT (R137 steps 2 and 3; R138). -/
def State.silenceLinks (s : State) : State :=
  let s := slotIndices.foldl State.releaseBringup s
  { s with ret := { s.ret with links := s.ret.links.map LinkRetained.silence } }

/-! ### The start (R184) -/

/-- The volatile state at its start values (R184 step 1; R101, R121, R138, R154, R155, R160, R177). -/
def State.clearVolatile (s : State) : State := { s with tp := {}, ru := {}, lc := {}, fp := {}, counters := {} }

/-- The number of non-EMPTY accounts. -/
def State.accountCount (s : State) : Nat := s.ret.accounts.toList.countP Option.isSome

/-- The number of present plans. -/
def State.planCount (s : State) : Nat := s.ret.plans.toList.countP Option.isSome

/-- The retention step of a start (R184 step 2), with the links made SILENT and the bring-ups abandoned. -/
def State.startRetention (s : State) (kind : StartKind) : State × Nat × Nat :=
  match kind with
  | .cold => ({ s with ret := Retained.cold }, 0, 0)
  | .warm => (s.silenceLinks, s.countLinks (fun l => l == .bound), s.countLinks LinkState.inBringup)

/-- The RESTART record of a start (R185). -/
def State.restartRecord (s : State) (kind : StartKind) (cause : StartCause) (tag silenced abandoned : Nat) : Report :=
  ⟨tag, 0, .restart ⟨kind, cause, s.ret.nodeId, s.ret.rank, s.ret.clock, s.ret.requested, s.accountCount, s.planCount,
    silenced, abandoned⟩⟩

/-- The alarm causes a start raises (R184 step 4). -/
def StartKind.causes : StartKind → List AlarmCause
  | .cold => [.coldRestart, .clockUnset]
  | .warm => [.warmRestart]

/-- The completion of a start (R184 step 5). The effective mode until the first slot start is the evaluation of R118 (DEDUCED, log
entry 28). -/
def State.completeStart (s : State) : State :=
  { s with
    powered := true
    retentionValid := true
    fp := { s.fp with
      idInEffect := s.ret.nodeId
      rankInEffect := s.ret.rank
      effective := effectiveMode s.ret.nodeId s.ru.escalated s.ret.requested } }

/-- A start (R184), in its order: volatile state, retention domain, RESTART, alarm causes, completion. -/
def State.start (s : State) (kind : StartKind) (cause : StartCause) (tag : Nat) : State :=
  let (s, silenced, abandoned) := s.clearVolatile.startRetention kind
  let s := s.hand (s.restartRecord kind cause tag silenced abandoned)
  (kind.causes.foldl State.raise s).completeStart

/-- POWER_UP (R183): warm with the retention-valid mark, cold without it. A rising edge while the supply is good acts as a start
too (DESIGN CHOICE, log entry 34). -/
def execPowerUp (s : State) : Host.Outcome State Fault Refusal :=
  .next (s.start (if s.retentionValid then .warm else .cold) .power 0)

/-- POWER_FAIL (R183): all volatile state is lost at once; while the supply is absent it stands at its start values (DESIGN
CHOICE, log entry 6). -/
def execPowerFail (s : State) : Host.Outcome State Fault Refusal := .next { s.clearVolatile with powered := false }

/-- RETENTION_SUPPLY_LOSS (R183): the retention domain's contents and its mark are lost. What it then holds is a free value (log
entry 7). -/
def execRetentionSupplyLoss (s : State) : Host.Outcome State Fault Refusal :=
  .next { s with ret := Config.lostRetention s.freeCount, retentionValid := false, freeCount := s.freeCount + 1 }

/-- The subcommand RESET_NODE (R183): a start with the frame's tag, and no RECEIPT. -/
def actResetNode : HandlerAction := fun _ f s =>
  if f.count ≠ 2 then rejectLength
  else
    match StartKind.ofCode (byteAt f.payload 1) with
    | none => reject .resetKind .none 0
    | some kind => .ok (s.start kind .command f.tag)

/-- RESET_NODE (R183). -/
def execResetNode (s : State) : Host.Outcome State Fault Refusal :=
  .next (s.takeFrame (namesNodeCommand .resetNode) actResetNode)

end Sys2Proof.Machine
end

