-- ==== Sys2Proof/Machine/NodeControl.lean ====
section
/-!
DEFINITION. The NODE_CONTROL subcommands but RESET_NODE (Starts.lean): SET_IDENTITY and SET_CONFIG (11), SET_CYCLE and SET_MODE
(06), FIELD_RESET (07), CLEAR_ESCALATION, SET_ALARM_MASK and READ_STATUS (10). Byte 0 of the payload is the subcommand code; every
refusal carries table NONE, index 0.
-/

namespace Sys2Proof.Machine

/-- The subcommand SET_IDENTITY (R179). -/
def actSetIdentity : HandlerAction := fun mode f s =>
  let id := field f.payload 1 2
  let rank := byteAt f.payload 3
  if f.count ≠ 4 then rejectLength
  else if id = 0 ∨ id = 65535 then reject .identityRange .none 0
  else if f.destination = 65535 then reject .identityBroadcast .none 0
  else
    let s := { s with ret := { s.ret with nodeId := id, rank := rank } }
    .ok (s.handReceipt mode f.tag f.slot (.setIdentity id rank s.fp.idInEffect s.fp.rankInEffect))

/-- SET_IDENTITY (R179). -/
def execSetIdentity (s : State) : Host.Outcome State Fault Refusal :=
  .next (s.takeFrame (namesNodeCommand .setIdentity) actSetIdentity)

/-- The ranges of the node configuration (R180). -/
def NodeConfig.inRange (c : NodeConfig) : Bool :=
  decide (c.defaultExponent ≤ 6) && decide (1 ≤ c.silenceLimit ∧ c.silenceLimit ≤ 255)
    && decide (8 ≤ c.bringupLimit ∧ c.bringupLimit ≤ 255) && decide (1 ≤ c.yieldLimit ∧ c.yieldLimit ≤ 16)

/-- The subcommand SET_CONFIG (R180). -/
def actSetConfig : HandlerAction := fun mode f s =>
  let c : NodeConfig := ⟨byteAt f.payload 1, byteAt f.payload 2, byteAt f.payload 3, byteAt f.payload 4⟩
  if f.count ≠ 5 then rejectLength
  else if !c.inRange then reject .configFields .none 0
  else
    let s := { s with ret := { s.ret with config := c } }
    .ok (s.handReceipt mode f.tag f.slot (.setConfig c))

/-- SET_CONFIG (R180). -/
def execSetConfig (s : State) : Host.Outcome State Fault Refusal :=
  .next (s.takeFrame (namesNodeCommand .setConfig) actSetConfig)

/-- The ranges of the cycle parameters (R105, R106). -/
def CycleParams.inRange (p : CycleParams) : Bool :=
  decide (100 ≤ p.slotLength ∧ p.slotLength ≤ 2000 ∧ p.slotLength % 10 = 0)
    && decide (2 ≤ p.contentionCount ∧ p.contentionCount ≤ 8) && decide (p.gap ≤ 3600)
    && decide (20 ≤ p.replyWindow ∧ p.replyWindow ≤ 500 ∧ p.replyWindow % 10 = 0 ∧ p.replyWindow < p.slotLength)

/-- The subcommand SET_CYCLE (R106). -/
def actSetCycle : HandlerAction := fun mode f s =>
  let p : CycleParams := ⟨field f.payload 1 2, byteAt f.payload 3, field f.payload 4 2, field f.payload 6 2⟩
  if f.count ≠ 8 then rejectLength
  else if !p.inRange then reject .cycleFields .none 0
  else
    let s := { s with fp := { s.fp with shadow := some p } }
    .ok (s.handReceipt mode f.tag f.slot (.setCycle p s.fp.cycle))

/-- SET_CYCLE (R106). -/
def execSetCycle (s : State) : Host.Outcome State Fault Refusal :=
  .next (s.takeFrame (namesNodeCommand .setCycle) actSetCycle)

/-- The subcommand SET_MODE (R117): the effective mode of the RECEIPT is the one in force. -/
def actSetMode : HandlerAction := fun mode f s =>
  if f.count ≠ 2 then rejectLength
  else
    match Mode.ofCode (byteAt f.payload 1) with
    | none => reject .modeCode .none 0
    | some m =>
      let s := { s with ret := { s.ret with requested := m } }
      .ok (s.handReceipt mode f.tag f.slot (.setMode m s.fp.effective))

/-- SET_MODE (R117). -/
def execSetMode (s : State) : Host.Outcome State Fault Refusal :=
  .next (s.takeFrame (namesNodeCommand .setMode) actSetMode)

/-! ### FIELD_RESET (R137) -/

/-- The Caller Queue emptied, and with it every bring-up part (R137 step 1, R139). -/
def State.emptyCallers (s : State) : State :=
  { s with lc := { s.lc with callers := [], links := s.lc.links.map LinkVolatile.clearBringup } }

/-- The subcommand FIELD_RESET (R137). -/
def actFieldReset : HandlerAction := fun mode f s =>
  if f.count ≠ 1 then rejectLength
  else
    let abandoned := s.countLinks LinkState.inBringup
    let silenced := s.countLinks fun l => l == .bound
    let probes := slotIndices.countP fun k => (s.linkVol k).probe.isSome
    let s := slotIndices.foldl State.dropProbe s.emptyCallers.silenceLinks
    .ok (s.handReceipt mode f.tag f.slot (.fieldReset abandoned silenced probes))

/-- FIELD_RESET (R137). -/
def execFieldReset (s : State) : Host.Outcome State Fault Refusal :=
  .next (s.takeFrame (namesNodeCommand .fieldReset) actFieldReset)

/-! ### The Report Unit's subcommands (R171, R174 to R176) -/

/-- The subcommand CLEAR_ESCALATION (R171). -/
def actClearEscalation : HandlerAction := fun mode f s =>
  if f.count ≠ 1 then rejectLength
  else if s.ru.holder.isSome then reject .holderOccupied .none 0
  else
    let was := s.ru.escalated
    let s := { s with ru := { s.ru with escalated := false } }
    .ok (s.handReceipt mode f.tag f.slot (.clearEscalation was))

/-- CLEAR_ESCALATION (R171). -/
def execClearEscalation (s : State) : Host.Outcome State Fault Refusal :=
  .next (s.takeFrame (namesNodeCommand .clearEscalation) actClearEscalation)

/-- The subcommand SET_ALARM_MASK (R174). -/
def actSetAlarmMask : HandlerAction := fun mode f s =>
  let mask : AlarmFlags := BitVec.ofNat 9 (field f.payload 1 2)
  if f.count ≠ 3 then rejectLength
  else
    let s := { s with ru := { s.ru with mask := mask } }
    .ok (s.handReceipt mode f.tag f.slot (.setAlarmMask mask))

/-- SET_ALARM_MASK (R174). -/
def execSetAlarmMask (s : State) : Host.Outcome State Fault Refusal :=
  .next (s.takeFrame (namesNodeCommand .setAlarmMask) actSetAlarmMask)

/-- The kit id of a QUARANTINE record. -/
def Report.quarantineKit (r : Report) : Nat :=
  match r.body with
  | .quarantine kitId _ _ _ _ _ _ => kitId
  | _ => 0

/-- The NODE_STATUS composed (R175). -/
def State.status (s : State) : StatusBody where
  nodeId := s.fp.idInEffect
  rank := s.fp.rankInEffect
  alarms := s.ru.alarms
  mask := s.ru.mask
  tallies := s.ru.tallies
  escalated := s.ru.escalated
  holder := s.ru.holder.map fun r => (r.slot, r.quarantineKit)
  fill := s.ru.queue.length
  requested := s.ret.requested
  effective := s.fp.effective
  active := s.ret.active
  shadow := s.fp.shadow
  cycle := s.fp.cycle
  history := s.fp.history
  clock := s.ret.clock

/-- The tallies named in a clear mask set to 0 (R176); bits 4 to 0 are RECEIPT, REFUSAL, REPLY, OTHER, ADVISORY (12). -/
def Tallies.clear (t : Tallies) (m : BitVec 5) : Tallies where
  receipt := if m.getLsbD 4 then 0 else t.receipt
  refusal := if m.getLsbD 3 then 0 else t.refusal
  reply := if m.getLsbD 2 then 0 else t.reply
  other := if m.getLsbD 1 then 0 else t.other
  advisory := if m.getLsbD 0 then 0 else t.advisory

/-- The clear of READ_STATUS (R176). -/
def State.clearStatus (s : State) (alarms : AlarmFlags) (tallies : BitVec 5) : State :=
  { s with ru := { s.ru with alarms := s.ru.alarms &&& ~~~alarms, tallies := s.ru.tallies.clear tallies } }

/-- The subcommand READ_STATUS (R175, R176): the reply composed, what the masks name cleared, and then the reply handed over under
every report mode, so that its own loss shows in the tally just cleared. -/
def actReadStatus : HandlerAction := fun _ f s =>
  let option := byteAt f.payload 1
  let reply : Report := ⟨f.tag, f.slot, .nodeStatus s.status⟩
  if f.count = 2 ∧ option = 0 then .ok (s.hand reply)
  else if f.count = 5 ∧ option = 1 then
    .ok ((s.clearStatus (BitVec.ofNat 9 (field f.payload 2 2)) (BitVec.ofNat 5 (byteAt f.payload 4))).hand reply)
  else rejectLength

/-- READ_STATUS (R175). -/
def execReadStatus (s : State) : Host.Outcome State Fault Refusal :=
  .next (s.takeFrame (namesNodeCommand .readStatus) actReadStatus)

end Sys2Proof.Machine
end

