-- ==== Sys2Proof/Machine/TrunkPort.lean ====
section
/-!
DEFINITION. The Trunk Port (05): the receiver's four states, the receive queue, and the transmitter. FRAME_BEGIN, CONTENT_BYTE and
OVERSIZE_BYTE are one physical event, a content byte on TRX, met in the receiver's state; so are FRAME_CLOSE and DELIMITER (log
entry 3).
-/

namespace Sys2Proof.Machine

/-- The receiver moved to a state. -/
def State.setReceiver (s : State) (r : Receiver) : State := { s with tp := { s.tp with receiver := r } }

/-- A content byte stored in a frame in reception (R90, R94): an escape pair is one content byte, counted at its escape (DEDUCED,
log entry 14); a pair that stands for no byte is an escape error. -/
def Reception.take (r : Reception) (b : Byte) : Reception :=
  if r.escaped then
    match unescape b with
    | some c => { r with content := r.content ++ [c], escaped := false }
    | none => { r with escaped := false, broken := true }
  else if b = escapeByte then { r with count := r.count + 1, escaped := true }
  else { r with content := r.content ++ [b], count := r.count + 1 }

/-- A frame before its first content byte. -/
def Reception.empty : Reception := ⟨[], 0, false, false⟩

/-- The limit on content bytes (R94). -/
def maxContent : Nat := 60

/-- A content byte other than the delimiter reaches the receiver (R90 to R92, R94). -/
def State.contentStep (s : State) (b : Byte) : State :=
  match s.tp.receiver with
  | .hunt | .discard => s
  | .open =>
    if s.tp.queue.length < 16 then s.setReceiver (.receive (Reception.empty.take b))
    else (s.bump .overrun).setReceiver .discard
  | .receive r =>
    let r' := r.take b
    if maxContent < r'.count then (s.bump .oversize).setReceiver .discard else s.setReceiver (.receive r')

/-- What a closing frame comes to (R95, R96). -/
inductive CloseResult where
  | checkFailure | surplus
  | accepted (f : RxFrame)
  deriving DecidableEq, Repr

/-- The checks at a frame's close, in order (R95, R96): escape, size, CRC, then the length against the header. -/
def Reception.close (r : Reception) : CloseResult :=
  let n := r.content.length
  let body := r.content.take (n - 4)
  if r.broken || r.escaped then .checkFailure
  else if n < 12 then .checkFailure
  else if r.content.drop (n - 4) ≠ beBytes 4 (crc32 body).toNat then .checkFailure
  else
    let f : RxFrame := ⟨body.take 8, body.drop 8⟩
    if f.statedLength < f.count then .surplus else .accepted f

/-- A delimiter reaches the receiver (R90, R95, R96): it closes the frame in reception and opens the next. -/
def State.delimiterStep (s : State) : State :=
  match s.tp.receiver with
  | .hunt | .open | .discard => s.setReceiver .open
  | .receive r =>
    let s := s.setReceiver .open
    match r.close with
    | .checkFailure => (s.bump .trunkCheck).raise .trunkCheck
    | .surplus => s.bump .oversize
    | .accepted f => s.setRxQueue (s.tp.queue ++ [f])

/-- A byte on TRX: the delimiter value is the delimiter whatever the command calls it (DEDUCED, log entry 3). Without the main
supply the port is dead (DESIGN CHOICE, log entry 6). -/
def State.receiveByte (s : State) (b : Byte) : State :=
  if !s.powered then s else if b = delimiterByte then s.delimiterStep else s.contentStep b

/-- FRAME_BEGIN (R91). -/
def execFrameBegin (b : Byte) (s : State) : Host.Outcome State Fault Refusal := .next (s.receiveByte b)

/-- CONTENT_BYTE (R90). -/
def execContentByte (b : Byte) (s : State) : Host.Outcome State Fault Refusal := .next (s.receiveByte b)

/-- OVERSIZE_BYTE (R94). -/
def execOversizeByte (b : Byte) (s : State) : Host.Outcome State Fault Refusal := .next (s.receiveByte b)

/-- FRAME_CLOSE (R95). -/
def execFrameClose (s : State) : Host.Outcome State Fault Refusal := .next (s.receiveByte delimiterByte)

/-- DELIMITER (R90). -/
def execDelimiter (s : State) : Host.Outcome State Fault Refusal := .next (s.receiveByte delimiterByte)

/-- GAP_EXPIRY (R93): the timer runs only in RECEIVE. -/
def execGapExpiry (s : State) : Host.Outcome State Fault Refusal :=
  match s.tp.receiver with
  | .receive _ => .next (if s.powered then (s.bump .gap).setReceiver .hunt else s)
  | .hunt | .open | .discard => .next s

/-- The transmitter moved to a state. -/
def State.setTransmitter (s : State) (t : Transmitter) : State := { s with tp := { s.tp with transmitter := t } }

/-- The source id of a record's frame: the id in effect when it is taken (R99), but for a RESTART, which carries the id that came
into effect at its start's completion (R185): the configured id it reports (R184 step 5; DEDUCED, log entry 35). -/
def Report.source (r : Report) (idInEffect : Nat) : Nat :=
  match r.body with
  | .restart b => b.nodeId
  | _ => idInEffect

/-- A record taken for sending (R98, R99), with its frame. -/
def State.send (s : State) (r : Report) : State := s.setTransmitter (.sending r (r.wire (r.source s.fp.idInEffect)))

/-- The choice of the transmitter in IDLE (R98): the holder's record first, else the oldest of the queue. -/
def State.takeRecord (s : State) : State :=
  match s.ru.holder, s.ru.queue with
  | some r, _ => { s with ru := { s.ru with holder := none } }.send r
  | none, r :: rest => { s with ru := { s.ru with queue := rest } }.send r
  | none, [] => s

/-- TRANSMIT_TAKE (R98): with modem-ready asserted and the transmitter IDLE, a waiting record is taken. -/
def execTransmitTake (ready : Bool) (s : State) : Host.Outcome State Fault Refusal :=
  match s.tp.transmitter with
  | .idle => .next (if s.powered && ready then s.takeRecord else s)
  | .sending _ _ => .next s

/-- REPORT_FRAME_SENT (R98, R100): the transmitter returns to IDLE; modem-ready is not tested. -/
def execReportFrameSent (s : State) : Host.Outcome State Fault Refusal := .next (s.setTransmitter .idle)

end Sys2Proof.Machine
end

