-- ==== Sys2Proof/Machine/FieldPort.lean ====
section
/-!
DEFINITION. The Field Port (06): cycles and slots, beacon arbitration, downlink frames and the reply window, the reception of
field frames, and the hand-over of their outcomes to the Link Controller.
-/

namespace Sys2Proof.Machine

/-! ### Small updates -/

/-- The Field Port's state replaced. -/
def State.setFp (s : State) (fp : FieldPort) : State := { s with fp := fp }

/-- The effective mode evaluated (R118). -/
def State.evalMode (s : State) : State :=
  s.setFp { s.fp with effective := effectiveMode s.fp.idInEffect s.ru.escalated s.ret.requested }

/-- Whether the node is keying, or about to key, anything but the beacon, so that the slot cannot end yet (DEDUCED, log entry 13).
-/
def FieldPort.busy (fp : FieldPort) : Bool :=
  match fp.downlink with
  | .silent => false
  | .dominance _ => true
  | .handed f | .keying f _ => f.kind != .beacon

/-! ### Receptions (R111, R113 to R116) -/

/-- The payload blocks R187 gives for a kind; for ABILITY by the page of its first payload byte; none for another page. -/
def UpKind.blocks (k : UpKind) (firstByte : Nat) : Option Nat :=
  match k with
  | .call => some 1
  | .report => some 2
  | .ability => if firstByte = 1 then some 3 else if firstByte = 2 then some 1 else none
  | .confirm => some 3
  | .echo => some 4

/-- The payload blocks of a frame that states `n`, decoded each on its own (R113); the last has 10 data bytes (R187). -/
def decodeBlocks (n : Nat) (blocks : List Block) : List (Option Decoded) :=
  blocks.mapIdx fun i b => decodeBlock (if i + 1 = n then 10 else 8) b

/-- The payload of a frame that states `n` blocks, when every one arrived and decoded and the CRC-16 matches (R115). -/
def goodPayload (n : Nat) (decoded : List (Option Decoded)) : Option (List Byte) :=
  if decoded.length = n ∧ decoded.all Option.isSome then
    let bytes := decoded.flatMap fun d => (d.map Decoded.data).getD []
    let payload := bytes.take (8 * n)
    if bytes.drop (8 * n) = beBytes 2 (crc16 payload).toNat then some payload else none
  else none

/-- The arrival record of a reception that ends with the payload blocks received (R115). -/
def FieldReception.arrival (r : FieldReception) (blocks : List Block) (first : Bool) : Arrival :=
  let decoded := decodeBlocks r.blockCount (blocks.take r.blockCount)
  let payload := (goodPayload r.blockCount decoded).filter fun p => r.kind.blocks (byteAt p 0) == some r.blockCount
  { kind := r.kind
    address := r.address
    payload := payload
    corrected := bitNat r.corrected + decoded.countP fun d => (d.map Decoded.corrected).getD false
    first := first
    flags := r.flags }

/-- Whether calls are open in the contention slot in progress (R111). -/
def FieldPort.takesCalls (fp : FieldPort) : Bool := fp.callsOpen && fp.effective == .run

/-- The dominance word a CALL's payload stands for: urgency and the low 14 bits of the kit id (R111). -/
def callWord (kitId urgency : Nat) : Nat := urgency * 16384 + kitId % 16384

/-- A CALL received in a contention slot (R111, R134): the urgency is the two low-order bits of its byte (R188); a failed payload
is handed over and not queued; a payload that differs from the sampled word is a collision; calls closed turn the CALL away. -/
def State.endCall (s : State) (a : Arrival) (word : BitVec 16) : State :=
  match a.payload with
  | none => s
  | some p =>
    let kitId := field p 0 4
    let urgency := byteAt p 4 % 4
    if callWord kitId urgency ≠ word.toNat then s.bump .contentionCollisions
    else if s.fp.takesCalls then s.takeCall kitId urgency
    else s.bump .callsDropped

/-- The frame in reception ends with the payload blocks received (R115, R116): short when fewer than stated; its record goes to the
Link Controller, which takes the first of the exchange (R128, R141) and the CALLs. -/
def State.endFrame (s : State) (blocks : List Block) : State :=
  match s.fp.reception with
  | none => s
  | some r =>
    let first := !s.fp.recordMade
    let s := if blocks.length < r.blockCount then s.bump .shortFrames else s
    match s.fp.place with
    | .contention _ => (s.setFp { s.fp with reception := none }).endCall (r.arrival blocks false) r.word
    | .data _ =>
      let s := s.setFp { s.fp with reception := none, recordMade := true }
      if first then s.exchangeOutcome (some (r.arrival blocks true)) else s
    | .started | .cycleBegun | .beacon | .gap => s.setFp { s.fp with reception := none }

/-- The no-reply indication (R104, R116), when the slot's window has run out with no record made. -/
def State.noReply (s : State) : State := if s.fp.recordMade then s else s.exchangeOutcome none

/-- FIELD_FRAME_END (R115): the last stated payload block has been received. -/
def execFieldFrameEnd (blocks : List Block) (s : State) : Host.Outcome State Fault Refusal := .next (s.endFrame blocks)

/-- CARRIER_LOSS_END (R115): carrier absent for more than one block time. -/
def execCarrierLossEnd (blocks : List Block) (s : State) : Host.Outcome State Fault Refusal := .next (s.endFrame blocks)

/-! ### Header blocks (R114) -/

/-- The fields of a received header block (12). -/
structure FieldHeader where
  kind : Option UpKind
  nodeId : Nat
  address : Nat
  cycleBits : Nat
  blockCount : Nat
  flags : Byte
  deriving DecidableEq, Repr

/-- A header block's data bytes read at their positions (12). -/
def FieldHeader.read (d : List Byte) : FieldHeader where
  kind := UpKind.ofCode (byteAt d 0)
  nodeId := field d 1 2
  address := byteAt d 3 % 2 * 256 + byteAt d 4
  cycleBits := byteAt d 5 % 64
  blockCount := byteAt d 6
  flags := d.getD 7 0

/-- Whether a kind is in place in the slot in progress (R114 test 4). -/
def UpKind.inPlace (k : UpKind) (p : Place) : Bool :=
  match k, p with
  | .call, .contention _ => true
  | .report, .data _ | .ability, .data _ | .confirm, .data _ | .echo, .data _ => true
  | _, _ => false

/-- What the tests of R114 make of a header block. -/
inductive HeaderVerdict where
  | failed | foreign
  | passed (r : FieldReception)
  deriving DecidableEq, Repr

/-- The four tests of R114, in order. -/
def FieldPort.judgeHeader (fp : FieldPort) (word : BitVec 16) (block : Block) : HeaderVerdict :=
  match decodeBlock 8 block with
  | none => .failed
  | some d =>
    let h := FieldHeader.read d.data
    if 4 < h.blockCount then .failed
    else if h.nodeId ≠ fp.idInEffect then .foreign
    else if h.cycleBits ≠ fp.cycle % 64 then .foreign
    else
      match h.kind with
      | none => .foreign
      | some k => if k.inPlace fp.place then .passed ⟨k, h.address, h.blockCount, h.flags, d.corrected, word⟩ else .foreign

/-- Whether a header block is looked at (R108, R114, R120): a CLAIMED cycle, a slot not QUIET, the node not keying, no frame in
reception, and the beacon slot, a contention slot, or a data slot in its reply window. One that began in a data slot outside the
reply window is not (R114). -/
def FieldPort.hears (fp : FieldPort) (outside : Bool) : Bool :=
  !outside && fp.status == .claimed && fp.effective != .quiet && fp.downlink == .silent && fp.reception.isNone
    && match fp.place with
      | .beacon | .contention _ => true
      | .data _ => fp.window != ReplyWindow.closed
      | .started | .cycleBegun | .gap => false

/-- The count of a header that fails to decode (R114 test 1). Each failing header of a contention slot counts, whatever follows in
the slot, and carrier that ends within its header block fails as an incomplete block (R111; DEDUCED, log entry 36). -/
def State.countHeaderFail (s : State) : State :=
  match s.fp.place with
  | .data _ => s.bump .headerFails
  | .contention _ => s.bump .contentionCollisions
  | .started | .cycleBegun | .beacon | .gap => s

/-- A header block judged (R114). -/
def State.takeHeader (s : State) (word : BitVec 16) (block : Block) : State :=
  match s.fp.judgeHeader word block with
  | .failed => s.countHeaderFail
  | .foreign => s.bump .foreignField
  | .passed r => s.setFp { s.fp with reception := some r }

/-- The header block that was arriving when the window ran out has been judged (R104): the window is closed, and without a frame of
the exchange in reception the no-reply indication follows (DESIGN CHOICE, log entry 12). -/
def State.settleLateHeader (s : State) : State :=
  if s.fp.window = ReplyWindow.lateHeader then
    let s := s.setFp { s.fp with window := .closed }
    if s.fp.reception.isSome then s else s.noReply
  else s

/-- FIELD_HEADER_BLOCK (R114). -/
def execFieldHeaderBlock (word : BitVec 16) (block : HeaderBlock) (s : State) : Host.Outcome State Fault Refusal :=
  .next (if s.powered && s.fp.hears block.outside then (s.takeHeader word block.bytes).settleLateHeader else s)

/-! ### Cycles and slots (R102, R103) -/

/-- The end of a slot (R104, R115, R116): a frame in reception is cut off with the blocks received so far; an open window ends with
its no-reply indication. -/
def State.endSlot (s : State) (cut : List Block) : State :=
  let s := match s.fp.reception with
    | some _ => s.endFrame cut
    | none => if s.fp.window = ReplyWindow.closed then s else s.noReply
  s.setFp { s.fp with window := .closed, recordMade := false, downlink := .silent }

/-- The cycle start's actions on the Field Port (R103), with the district day the beacon will carry (R110). -/
def State.beginCycle (s : State) : State :=
  let s := s.setFp { s.fp with
    cycle := (s.fp.cycle + 1) % 65536
    cycleDay := if s.ret.clock.isSet then s.ret.clock.day else 0
    status := .pending
    callsOpen := false
    quieted := false
    place := .cycleBegun }
  let s := match s.fp.shadow with
    | some p => { s with ret := { s.ret with active := p }, fp := { s.fp with shadow := none } }
    | none => s
  (s.setFp { s.fp with idInEffect := s.ret.nodeId, rankInEffect := s.ret.rank }).evalMode

/-- Whether the next event of the field timer is a cycle start (R102): after a start, at the end of the gap, or at the end of data
slot 23 with a gap of 0. -/
def State.cycleStartDue (s : State) : Bool :=
  s.powered && !s.fp.busy && match s.fp.place with
    | .started | .gap => true
    | .data n => n == 23 && s.ret.active.gap == 0
    | .cycleBegun | .beacon | .contention _ => false

/-- CYCLE_START (R103), then the Link Controller's part (R133, R149, R151). -/
def execCycleStart (cut : List Block) (s : State) : Host.Outcome State Fault Refusal :=
  .next (if s.cycleStartDue then (s.endSlot cut).beginCycle.linkCycleStart else s)

/-- The slot that follows a place in the cycle (R102), for a contention count; none where a slot start does not come next. -/
def Place.nextSlot (p : Place) (contentionCount : Nat) : Option Place :=
  match p with
  | .cycleBegun => some .beacon
  | .beacon => some (if 0 < contentionCount then .contention 0 else .data 0)
  | .contention n => some (if n + 1 < contentionCount then .contention (n + 1) else .data 0)
  | .data n => if n < 23 then some (.data (n + 1)) else none
  | .started | .gap => none

/-- The dominance word (R107): rank in effect, then node id in effect. -/
def FieldPort.dominanceWord (fp : FieldPort) : BitVec 24 := BitVec.ofNat 24 (fp.rankInEffect * 65536 + fp.idInEffect)

/-- A slot of a CLAIMED cycle that starts under QUIET ends the node's keying for the cycle (R120). -/
def State.noteQuiet (s : State) : State :=
  s.setFp { s.fp with quieted := s.fp.quieted || (s.fp.status == .claimed && s.fp.effective == .quiet) }

/-- The start of the slot `p` (R102, R107, R108, R118, R120, R126): the mode evaluated first; a beacon slot keys the dominance word,
or under QUIET makes the cycle UNCLAIMED; a data slot is used. -/
def State.beginSlot (s : State) (p : Place) : State :=
  let s := (s.setFp { s.fp with place := p }).evalMode.noteQuiet
  match p with
  | .beacon =>
    if s.fp.effective = .quiet then s.setFp { s.fp with status := .unclaimed }
    else s.setFp { s.fp with downlink := .dominance s.fp.dominanceWord }
  | .data n => s.useDataSlot n
  | .contention _ | .started | .cycleBegun | .gap => s

/-- SLOT_START (R102). -/
def execSlotStart (cut : List Block) (s : State) : Host.Outcome State Fault Refusal :=
  match s.fp.place.nextSlot s.ret.active.contentionCount with
  | some p => .next (if s.powered && !s.fp.busy then (s.endSlot cut).beginSlot p else s)
  | none => .next s

/-- GAP_START (R102): the end of data slot 23 with a gap above 0. -/
def execGapStart (cut : List Block) (s : State) : Host.Outcome State Fault Refusal :=
  .next (
    if s.powered && !s.fp.busy && s.fp.place == .data 23 && s.ret.active.gap != 0 then
      let s := s.endSlot cut
      s.setFp { s.fp with place := .gap }
    else s)

/-! ### Beacon arbitration (R107 to R110) -/

/-- An outcome appended to the yield history, at most 16 long (R109). -/
def appendYield (h : List YieldOutcome) (o : YieldOutcome) : List YieldOutcome := (h ++ [o]).drop (h.length + 1 - 16)

/-- The append of a contended cycle, with the yield limit's test (R109). -/
def State.recordYield (s : State) (o : YieldOutcome) : State :=
  let s := s.setFp { s.fp with history := appendYield s.fp.history o }
  if s.ret.config.yieldLimit ≤ yieldedCount s.fp.history then s.raise .yieldLimit else s

/-- BEACON_WON (R107, R108, R110): the cycle is CLAIMED and the beacon follows at once. -/
def execBeaconWon (s : State) : Host.Outcome State Fault Refusal :=
  match s.fp.downlink with
  | .dominance _ =>
    let callsOpen := s.fp.effective == .run
    let f := beaconFrame s.fp.idInEffect s.fp.cycle s.fp.cycleDay s.ret.active.contentionCount callsOpen
    .next ((s.setFp { s.fp with
      status := .claimed
      callsOpen := callsOpen
      downlink := .keying f (f.air s.fp.idInEffect s.fp.cycle) }).recordYield .won)
  | .silent | .handed _ | .keying _ _ => .next s

/-- BEACON_YIELD (R107, R108): carrier on a recessive bit, bit 0 sent first; on a dominant bit it has no effect. -/
def execBeaconYield (bit : Nat) (s : State) : Host.Outcome State Fault Refusal :=
  match s.fp.downlink with
  | .dominance w =>
    if decide (bit < 24) && w.getLsbD (23 - bit) then
      .next (((s.setFp { s.fp with status := .yielded, downlink := .silent }).bump .yieldedCycles).recordYield .yielded)
    else .next s
  | .silent | .handed _ | .keying _ _ => .next s

/-! ### Downlink frames and the reply window (R104) -/

/-- The keying notice of a POLL whose keying begins (R46, R127). -/
def State.noticeKeying (s : State) : State :=
  match s.lc.exchange with
  | some ⟨.poll carried, slot, kitId⟩ => s.keyingNotice slot kitId carried.grant
  | _ => s

/-- KEYING_BEGUN (R46, R104, R112): the handed frame's coded blocks go on air. -/
def execKeyingBegun (s : State) : Host.Outcome State Fault Refusal :=
  match s.fp.downlink with
  | .handed f => .next (s.setFp { s.fp with downlink := .keying f (f.air s.fp.idInEffect s.fp.cycle) }).noticeKeying
  | .silent | .dominance _ | .keying _ _ => .next s

/-- DOWNLINK_KEYED (R104): the last block has been keyed; in a data slot the reply window opens. -/
def execDownlinkKeyed (s : State) : Host.Outcome State Fault Refusal :=
  match s.fp.downlink with
  | .keying f _ =>
    if f.kind = .beacon then .next (s.setFp { s.fp with downlink := .silent })
    else .next (s.setFp { s.fp with downlink := .silent, window := .open, recordMade := false })
  | .silent | .dominance _ | .handed _ => .next s

/-- REPLY_WINDOW_CLOSE (R104, R116): with a frame of the exchange in reception or a record made the window just closes; with a
header block still arriving it waits for that header (DESIGN CHOICE, log entry 12); else the no-reply indication follows. -/
def execReplyWindowClose (headerArriving : Bool) (s : State) : Host.Outcome State Fault Refusal :=
  match s.fp.window with
  | .open =>
    if s.fp.reception.isSome then .next (s.setFp { s.fp with window := .closed })
    else if headerArriving then .next (s.setFp { s.fp with window := .lateHeader })
    else .next (s.setFp { s.fp with window := .closed }).noReply
  | .closed | .lateHeader => .next s

end Sys2Proof.Machine
end

