-- ==== Sys2Proof/Machine/Dispatch.lean ====
section
/-!
DEFINITION. The dispatch of a command to its meaning: one arm for each row of spec/opcode_table.json.
-/

namespace Sys2Proof.Machine

/-- The effect of a command on everything but the queue of waiting commands. -/
def exec (i : Instr) (s : State) : Host.Outcome State Fault Refusal :=
  match i with
  | .frameBegin b => Sys2Proof.Machine.execFrameBegin b s
  | .oversizeByte b => Sys2Proof.Machine.execOversizeByte b s
  | .gapExpiry => Sys2Proof.Machine.execGapExpiry s
  | .frameClose => Sys2Proof.Machine.execFrameClose s
  | .setIdentity => Sys2Proof.Machine.execSetIdentity s
  | .setConfig => Sys2Proof.Machine.execSetConfig s
  | .resetNode => Sys2Proof.Machine.execResetNode s
  | .setCycle => Sys2Proof.Machine.execSetCycle s
  | .setMode => Sys2Proof.Machine.execSetMode s
  | .fieldReset => Sys2Proof.Machine.execFieldReset s
  | .clearEscalation => Sys2Proof.Machine.execClearEscalation s
  | .setAlarmMask => Sys2Proof.Machine.execSetAlarmMask s
  | .readStatus => Sys2Proof.Machine.execReadStatus s
  | .loadDisposition => Sys2Proof.Machine.execLoadDisposition s
  | .setTime => Sys2Proof.Machine.execSetTime s
  | .readCounters => Sys2Proof.Machine.execReadCounters s
  | .loadPlan => Sys2Proof.Machine.execLoadPlan s
  | .unloadPlan => Sys2Proof.Machine.execUnloadPlan s
  | .readPlan => Sys2Proof.Machine.execReadPlan s
  | .loadAccount => Sys2Proof.Machine.execLoadAccount s
  | .unloadAccount => Sys2Proof.Machine.execUnloadAccount s
  | .suspend => Sys2Proof.Machine.execSuspend s
  | .resume => Sys2Proof.Machine.execResume s
  | .clearQuarantine => Sys2Proof.Machine.execClearQuarantine s
  | .changePlan => Sys2Proof.Machine.execChangePlan s
  | .adjustCredit => Sys2Proof.Machine.execAdjustCredit s
  | .applyVoucher => Sys2Proof.Machine.execApplyVoucher s
  | .readAccount => Sys2Proof.Machine.execReadAccount s
  | .relayToKit => Sys2Proof.Machine.execRelayToKit s
  | .probeKit => Sys2Proof.Machine.execProbeKit s
  | .discard => Sys2Proof.Machine.execDiscard s
  | .cycleStart cut => Sys2Proof.Machine.execCycleStart cut s
  | .slotStart cut => Sys2Proof.Machine.execSlotStart cut s
  | .beaconWon => Sys2Proof.Machine.execBeaconWon s
  | .beaconYield bit => Sys2Proof.Machine.execBeaconYield bit s
  | .keyingBegun => Sys2Proof.Machine.execKeyingBegun s
  | .downlinkKeyed => Sys2Proof.Machine.execDownlinkKeyed s
  | .replyWindowClose headerArriving => Sys2Proof.Machine.execReplyWindowClose headerArriving s
  | .fieldHeaderBlock word block => Sys2Proof.Machine.execFieldHeaderBlock word block s
  | .carrierLossEnd blocks => Sys2Proof.Machine.execCarrierLossEnd blocks s
  | .fieldFrameEnd blocks => Sys2Proof.Machine.execFieldFrameEnd blocks s
  | .clockSecond => Sys2Proof.Machine.execClockSecond s
  | .powerUp => Sys2Proof.Machine.execPowerUp s
  | .powerFail => Sys2Proof.Machine.execPowerFail s
  | .transmitTake ready => Sys2Proof.Machine.execTransmitTake ready s
  | .reportFrameSent => Sys2Proof.Machine.execReportFrameSent s
  | .contentByte b => Sys2Proof.Machine.execContentByte b s
  | .delimiter => Sys2Proof.Machine.execDelimiter s
  | .frameTaken => Sys2Proof.Machine.execFrameTaken s
  | .gapStart cut => Sys2Proof.Machine.execGapStart cut s
  | .retentionSupplyLoss => Sys2Proof.Machine.execRetentionSupplyLoss s

end Sys2Proof.Machine
end

