-- ==== Sys2Proof/Safety.lean ====
section
/-!
DEFINITION. The terms the claims use: a frame the Classifier admits, and the invariants of the block, each from the rule its
docstring names.
-/

namespace Sys2Proof.Machine

/-! ### Frames -/

/-- The oldest frame of the receive queue is `f`, `rest` follows it, the block is powered, and the first four stages pass with the
entry `e` (R72, R77). -/
structure Admitted (s : State) (f : RxFrame) (rest : List RxFrame) (e : Entry) : Prop where
  powered : s.powered = true
  front : s.tp.queue = f :: rest
  passed : screen f s = .passed e

/-- The command that stands for taking a frame of a class whose entry names the handler `h`: for NODE_CONTROL and
SET_ACCOUNT_STATE the subcommand decides, and a frame without a known one is FRAME_TAKEN's. -/
def commandFor (h : Handler) (f : RxFrame) : Instr :=
  match h with
  | .nodeControl =>
    match f.nodeCommand with
    | some .setIdentity => .setIdentity
    | some .setConfig => .setConfig
    | some .resetNode => .resetNode
    | some .setCycle => .setCycle
    | some .setMode => .setMode
    | some .fieldReset => .fieldReset
    | some .clearEscalation => .clearEscalation
    | some .setAlarmMask => .setAlarmMask
    | some .readStatus => .readStatus
    | none => .frameTaken
  | .setAccountState =>
    match f.accountCommand with
    | some .suspend => .suspend
    | some .resume => .resume
    | some .clearQuarantine => .clearQuarantine
    | some .changePlan => .changePlan
    | none => .frameTaken
  | .loadDisposition => .loadDisposition
  | .setTime => .setTime
  | .readCounters => .readCounters
  | .loadPlan => .loadPlan
  | .unloadPlan => .unloadPlan
  | .loadAccount => .loadAccount
  | .unloadAccount => .unloadAccount
  | .adjustCredit => .adjustCredit
  | .applyVoucher => .applyVoucher
  | .readAccount => .readAccount
  | .relayToKit => .relayToKit
  | .probeKit => .probeKit
  | .readPlan => .readPlan
  | .discard => .discard

/-- The oldest frame is admitted, and the command `c` stands for taking it. -/
structure Takes (c : Instr) (s : State) (f : RxFrame) (rest : List RxFrame) (e : Entry) : Prop extends
    Admitted s f rest e where
  command : commandFor e.handler f = c

/-- A CONTENT refusal without figures handed over under the report mode of the entry (R83, R85, R88). -/
def State.refuse (s : State) (e : Entry) (f : RxFrame) (r : Reason) (t : TableId) (i : Nat) : State :=
  s.handRefusal e.mode (refusalRecord f .content r t i)

/-- A RECEIPT of a frame handed over under the report mode of the entry (R88). -/
def State.receipt (s : State) (e : Entry) (f : RxFrame) (r : ReceiptBody) : State := s.handReceipt e.mode f.tag f.slot r

/-- Whether the payload of a frame fits a layout of its handler: its length, and the option and flag bytes that 12 defines (R83,
R188). NODE_CONTROL is judged by its subcommand (R178); RELAY_TO_KIT and DISCARD make no LENGTH check. -/
def layoutFits (h : Handler) (f : RxFrame) : Bool :=
  match h with
  | .nodeControl =>
    match f.nodeCommand with
    | some .setIdentity => f.count == 4
    | some .setConfig => f.count == 5
    | some .resetNode => f.count == 2
    | some .setCycle => f.count == 8
    | some .setMode => f.count == 2
    | some .fieldReset => f.count == 1
    | some .clearEscalation => f.count == 1
    | some .setAlarmMask => f.count == 3
    | some .readStatus => (f.count == 2 && byteAt f.payload 1 == 0) || (f.count == 5 && byteAt f.payload 1 == 1)
    | none => true
  | .loadDisposition => (f.count == 5 || f.count == 6) && decide (byteAt f.payload 1 ≤ 1)
  | .setTime => f.count == 6 && decide (byteAt f.payload 5 ≤ 1)
  | .readCounters =>
    if f.slot = 0 then f.count == 1 && decide (byteAt f.payload 0 ≤ 1)
    else f.count == 5 && decide (byteAt f.payload 4 ≤ 1)
  | .loadPlan => f.count == 34
  | .unloadPlan | .readPlan => f.count == 1
  | .loadAccount => f.count == 19
  | .unloadAccount => f.count == 4
  | .setAccountState =>
    f.count == 6 && (f.accountCommand != some .clearQuarantine || decide (byteAt f.payload 5 ≤ 1))
  | .adjustCredit | .applyVoucher => f.count == 10
  | .readAccount => f.count == 5 && decide (byteAt f.payload 4 ≤ 1)
  | .probeKit => f.count == 7
  | .relayToKit | .discard => true

/-! ### Starts and resets -/

/-- A link record after bring-ups are abandoned and bound kits silenced (R137 steps 2 and 3; R138). -/
def LinkRetained.afterReset (l : LinkRetained) : LinkRetained :=
  match l.state with
  | .bringup _ => { l with state := .absent, kitId := none, placement := none }
  | .absent => { l with kitId := none }
  | .bound => { l with state := .silent }
  | .silent => l

/-- Whether a link in BRINGUP holds a placement that covers cell `i`. -/
def State.BringupCovers (s : State) (i : Nat) : Prop :=
  ∃ k ∈ slotIndices, ∃ p, (s.link k).state.inBringup = true ∧ (s.link k).placement = some p ∧ i ∈ p.cells

/-- From `s` to `t` every bring-up is abandoned with its placement released, and every bound kit is made SILENT (R137, R138). -/
def LinksReset (s t : State) : Prop :=
  (∀ k, t.link k = (s.link k).afterReset) ∧
  (∀ i, s.BringupCovers i → (t.ret.calendar[i]?).join = none) ∧
  ∀ i, ¬ s.BringupCovers i → t.ret.calendar[i]? = s.ret.calendar[i]?

/-- `t` is `s` after a warm start of a cause and a tag (R184, R185): the retention domain kept but for links reset, every volatile
register at its start value, RESTART and the ALARM of WARM_RESTART in the Report Queue. The effective mode until the first slot is
the model's choice (log entry 28). -/
structure WarmStarted (s t : State) (cause : StartCause) (tag : Nat) : Prop where
  powered : t.powered = true
  retentionValid : t.retentionValid = true
  pending : t.pending = s.pending
  freeCount : t.freeCount = s.freeCount
  ret : t.ret = { s.ret with calendar := t.ret.calendar, links := t.ret.links }
  links : LinksReset s t
  tp : t.tp = {}
  lc : t.lc = {}
  counters : t.counters = {}
  fp : t.fp =
    { idInEffect := s.ret.nodeId
      rankInEffect := s.ret.rank
      effective := effectiveMode s.ret.nodeId false s.ret.requested }
  ru : t.ru =
    { queue :=
        [⟨tag, 0, .restart ⟨.warm, cause, s.ret.nodeId, s.ret.rank, s.ret.clock, s.ret.requested, s.accountCount, s.planCount,
            s.countLinks (fun l => l == .bound), s.countLinks LinkState.inBringup⟩⟩,
         ⟨0, 0, .alarm .warmRestart 65535 s.ret.clock⟩]
      alarms := 0b10 }

/-- The state after a cold start of a cause and a tag (R184, R185): the state after reset, but for the RESTART's cause and tag and
what is the model's own. -/
def coldStarted (s : State) (cause : StartCause) (tag : Nat) : State :=
  { State.reset with
    ru := { State.reset.ru with
      queue :=
        [⟨tag, 0, .restart ⟨.cold, cause, 0, 255, ⟨false, 0, 0⟩, .quiet, 0, 0, 0, 0⟩⟩,
         ⟨0, 0, .alarm .coldRestart 65535 ⟨false, 0, 0⟩⟩,
         ⟨0, 0, .alarm .clockUnset 65535 ⟨false, 0, 0⟩⟩] }
    pending := s.pending
    freeCount := s.freeCount }

/-! ### Invariants -/

/-- The Report Queue holds at most 64 records (R165), the priority holder only a QUARANTINE record (R169), and no tally passes 255
(R168). -/
def State.ReportsBounded (s : State) : Prop :=
  s.ru.queue.length ≤ 64 ∧ (∀ r ∈ s.ru.holder, r.body.reportClass = .quarantine) ∧
  s.ru.tallies.receipt ≤ 255 ∧ s.ru.tallies.refusal ≤ 255 ∧ s.ru.tallies.reply ≤ 255 ∧ s.ru.tallies.other ≤ 255 ∧
  s.ru.tallies.advisory ≤ 255

/-- The bounds of a frame in reception (R94): at most 60 content bytes, an open escape counted among them. -/
def Receiver.Bounded : Receiver → Prop
  | .receive r => r.count ≤ 60 ∧ r.content.length + bitNat r.escaped ≤ r.count
  | .hunt | .open | .discard => True

/-- At most 16 receive queue entries are occupied or reserved (R91), each of 8 header bytes and 0 to 48 payload bytes (05 section
5.2), and a frame in reception keeps the limit of R94. -/
def State.TrunkBounded (s : State) : Prop :=
  s.tp.used ≤ 16 ∧ s.tp.receiver.Bounded ∧ ∀ f ∈ s.tp.queue, f.header.length = 8 ∧ f.payload.length ≤ 48

/-- The fixed entries of classes 0 to 3 stand as the default image has them, no other entry is fixed, every entry that names
NODE_CONTROL or LOAD_DISPOSITION has ceiling 0, and the limit is 4 to 64 (R73 to R76). -/
def State.DispositionSound (s : State) : Prop :=
  (∀ c < 4, s.entry c = (defaultEntries[c]?).join) ∧ 4 ≤ s.ret.limit ∧ s.ret.limit ≤ 64 ∧
  ∀ c e, s.entry c = some e → e.ceiling ≤ 3 ∧ (4 ≤ c → e.fixed = false) ∧
    (e.handler = .nodeControl ∨ e.handler = .loadDisposition → e.ceiling = 0)

/-- The energy figures of an account: balance and arrears are never both nonzero (R3), and both keep their ranges (R1). -/
def Account.FiguresSound (a : Account) : Prop := (a.balance = 0 ∨ a.arrears = 0) ∧ a.balance ≤ maxWh ∧ a.arrears ≤ maxArrears

/-- Every account's figures are sound, and every plan's credit ceiling keeps its range (R1, R3, R25). -/
def State.FiguresSound (s : State) : Prop :=
  (∀ slot a, s.account slot = some a → a.FiguresSound) ∧ ∀ n p, s.plan n = some p → p.creditCeiling ≤ maxWh

/-- The kit id of a non-EMPTY account is nonzero, and no two accounts hold the same (R2). -/
def State.KitIdsUnique (s : State) : Prop :=
  (∀ slot a, s.account slot = some a → a.kitId ≠ 0) ∧
  ∀ j k a b, s.account j = some a → s.account k = some b → a.kitId = b.kitId → j = k

/-- An account holds a pending grant in ACTIVE alone (R45) and never beside a withdrawn grant (R51). -/
def Account.GrantsExclusive (a : Account) : Prop := a.pendingGrant.isSome → a.state = .active ∧ a.withdrawn = none

/-- Every account's grants are exclusive. -/
def State.GrantsExclusive (s : State) : Prop := ∀ slot a, s.account slot = some a → a.GrantsExclusive

/-- The number of non-EMPTY accounts naming a plan. -/
def State.usersOf (s : State) (n : Nat) : Nat :=
  s.ret.accounts.toList.countP fun x => match x with
    | some a => a.plan == n
    | none => false

/-- Each plan's use count equals the number of non-EMPTY accounts naming it, and every account names a present plan (R22, R28). -/
def State.UseCountsAgree (s : State) : Prop :=
  (∀ n p, s.plan n = some p → p.useCount = s.usersOf n) ∧ ∀ slot a, s.account slot = some a → (s.plan a.plan).isSome

/-- The Caller Queue never holds more than 8 entries nor two entries with the same kit id, and stands in its order, each entry with
an arrival order of its own (R135). -/
def State.CallersOrdered (s : State) : Prop :=
  s.lc.callers.length ≤ 8 ∧ (s.lc.callers.map Caller.kitId).Nodup ∧ (s.lc.callers.map Caller.arrival).Nodup ∧
  s.lc.callers.Pairwise (fun a b => a.before b = true) ∧ ∀ c ∈ s.lc.callers, c.arrival < s.lc.nextArrival

/-- The link states that hold a placement (R122). -/
def LinkState.placed : LinkState → Bool
  | .bound | .silent | .bringup .offered | .bringup .confirmed => true
  | .absent | .bringup .invited | .bringup .page2 => false

/-- The law of the Wake Calendar (R122): a link holds a placement exactly when its state is one that does, the cells a placement
covers name its kit, and every occupied cell names a kit whose placement covers it. Every Caller Queue entry names a slot of the
tables (R135). -/
def State.CalendarLawful (s : State) : Prop :=
  (∀ k, (s.link k).placement.isSome = (s.link k).state.placed) ∧
  (∀ k p, (s.link k).placement = some p → ∀ i ∈ p.cells, s.ret.calendar[i]? = some (some k)) ∧
  (∀ i k, s.ret.calendar[i]? = some (some k) → ∃ p, (s.link k).placement = some p ∧ i ∈ p.cells) ∧
  ∀ c ∈ s.lc.callers, 1 ≤ c.slot ∧ c.slot ≤ 384

/-- The clock's ranges; an UNSET clock stands at day 0, second 0 (R181). -/
def Clock.Valid (c : Clock) : Prop :=
  c.day ≤ 65535 ∧ c.second < secondsOfDay ∧ (c.isSet = false → c.day = 0 ∧ c.second = 0)

/-- The control registers keep their ranges: active and shadow parameters (R105), node configuration (R180), clock (R181),
configured identity and identity in effect (R179). -/
def State.ControlInRange (s : State) : Prop :=
  s.ret.active.inRange = true ∧ (∀ p ∈ s.fp.shadow, p.inRange = true) ∧ s.ret.config.inRange = true ∧ s.ret.clock.Valid ∧
  s.ret.nodeId < 65535 ∧ s.ret.rank ≤ 255 ∧ s.fp.idInEffect < 65535 ∧ s.fp.rankInEffect ≤ 255

/-- The counters of a link keep their range (R154). -/
def LinkVolatile.CountersBounded (v : LinkVolatile) : Prop :=
  v.goodFrames ≤ 65535 ∧ v.missedWakes ≤ 65535 ∧ v.failedFrames ≤ 65535 ∧ v.correctedBlocks ≤ 65535

/-- The twelve node counters and the counters of every link run from 0 to 65,535 (R97, R121, R154, R155). -/
def State.CountersBounded (s : State) : Prop :=
  (∀ n, s.counters.get n ≤ 65535) ∧ ∀ slot, (s.linkVol slot).CountersBounded

/-- The cycle number is 0 to 65,535 (R103) and the yield history holds at most 16 entries (R109). -/
def State.CycleBounded (s : State) : Prop := s.fp.cycle ≤ 65535 ∧ s.fp.history.length ≤ 16

end Sys2Proof.Machine
end

