-- ==== Sys2Proof/Certificates/Slice0/Obligations.lean ====
section
/-!
DEFINITION. The statements for the provers, block by block. Each docstring cites the rules it formalises, and the log entries where
it rests on a choice of the model. `u` names the state with the frame in hand taken from the receive queue.
-/

open Sys2Proof Sys2Proof.Machine

/-! ### The queue of commands -/

/-- A step takes the command at the front of the queue and runs it on the state with the queue's rest; with no command waiting the
block stands still (the model's choice, log entry 1). -/
def Obligations.StepRunsFrontCommand : Prop :=
  ∀ s : State,
    (∀ c rest, s.pending = c :: rest → step s = exec c (s.withPending rest)) ∧ (s.pending = [] → step s = .next s)

/-! ### Invariants -/

/-- Every invariant below holds of the state after reset. -/
def Obligations.ResetMeetsInvariants : Prop :=
  State.reset.ReportsBounded ∧ State.reset.TrunkBounded ∧ State.reset.CallersOrdered ∧ State.reset.CountersBounded ∧
  State.reset.CycleBounded ∧ State.reset.DispositionSound ∧ State.reset.FiguresSound ∧ State.reset.KitIdsUnique ∧
  State.reset.GrantsExclusive ∧ State.reset.UseCountsAgree ∧ State.reset.ControlInRange ∧ State.reset.CalendarLawful

/-- The Report Queue never holds more than 64 records, the holder only a QUARANTINE record, no tally passes 255 (R165, R168,
R169). -/
def Obligations.StepKeepsReportBounds : Prop :=
  ∀ s t : State, s.ReportsBounded → step s = .next t → t.ReportsBounded

/-- At most 16 receive queue entries are occupied or reserved, and no frame passes the port's limits (R91, R94, R96). -/
def Obligations.StepKeepsTrunkBounds : Prop :=
  ∀ s t : State, s.TrunkBounded → step s = .next t → t.TrunkBounded

/-- The Caller Queue keeps its law and its order (R135). -/
def Obligations.StepKeepsCallerOrder : Prop :=
  ∀ s t : State, s.CallersOrdered → step s = .next t → t.CallersOrdered

/-- Every counter, the cycle number and the yield history keep their ranges (R97, R103, R109, R121, R154, R155). -/
def Obligations.StepKeepsCounterRanges : Prop :=
  ∀ s t : State, s.CountersBounded → s.CycleBounded → step s = .next t → t.CountersBounded ∧ t.CycleBounded

/-- The fixed entries stay as the default image has them, and NODE_CONTROL and LOAD_DISPOSITION stay at ceiling 0 (R73 to R76).
The loss of the retention supply, which leaves a free value in the table (log entry 7), is set apart. -/
def Obligations.StepKeepsDispositionTable : Prop :=
  ∀ s t : State, s.DispositionSound → s.pending.head? ≠ some .retentionSupplyLoss → step s = .next t → t.DispositionSound

/-- No account ever holds a balance and arrears together, and both keep their ranges (R1, R3). Retention loss set apart (log entry
7). -/
def Obligations.StepKeepsFiguresSound : Prop :=
  ∀ s t : State, s.FiguresSound → s.pending.head? ≠ some .retentionSupplyLoss → step s = .next t → t.FiguresSound

/-- Kit ids stay nonzero and unique (R2). Retention loss set apart (log entry 7). -/
def Obligations.StepKeepsKitIdsUnique : Prop :=
  ∀ s t : State, s.KitIdsUnique → s.pending.head? ≠ some .retentionSupplyLoss → step s = .next t → t.KitIdsUnique

/-- A pending grant is held in ACTIVE alone and never beside a withdrawn grant (R45, R51). Retention loss set apart (log entry
7). -/
def Obligations.StepKeepsGrantsExclusive : Prop :=
  ∀ s t : State, s.GrantsExclusive → s.pending.head? ≠ some .retentionSupplyLoss → step s = .next t → t.GrantsExclusive

/-- Each plan's use count is the number of accounts naming it, and every account names a present plan (R22, R28). Retention loss
set apart (log entry 7). -/
def Obligations.StepKeepsUseCounts : Prop :=
  ∀ s t : State, s.UseCountsAgree → s.pending.head? ≠ some .retentionSupplyLoss → step s = .next t → t.UseCountsAgree

/-- Cycle parameters, node configuration, clock and identity keep their ranges (R105, R179 to R181). Retention loss set apart (log
entry 7). -/
def Obligations.StepKeepsControlRanges : Prop :=
  ∀ s t : State, s.ControlInRange → s.pending.head? ≠ some .retentionSupplyLoss → step s = .next t → t.ControlInRange

/-- The law of the Wake Calendar (R122): every occupied cell names a kit whose placement covers it, every cell a placement covers
names its kit, and a link holds a placement exactly when it is BOUND, SILENT, or in BRINGUP at OFFERED or CONFIRMED. Retention
loss set apart (log entry 7). -/
def Obligations.StepKeepsCalendarLaw : Prop :=
  ∀ s t : State, s.CalendarLawful → s.pending.head? ≠ some .retentionSupplyLoss → step s = .next t → t.CalendarLawful

/-! ### Starts and supplies (11) -/

/-- POWER_UP starts cold without the retention-valid mark and warm with it; RESET_NODE makes a start of the kind asked for, with
the frame's tag and no RECEIPT, and any other kind is refused RESET_KIND (R183 to R185, R138). The registers without a stated
start value (log entry 32), the effective mode before the first slot (log entry 28) what counts as a bring-up abandoned (log entry
25), the tag 0 of the ALARM records of a RESET_NODE start (log entry 22) and that POWER_UP under power is a start (log entry 34)
are the model's choice. -/
def Obligations.PowerUpAndResetNodeStart : Prop :=
  ∀ s : State,
    (s.retentionValid = false → exec .powerUp s = .next (coldStarted s .power 0)) ∧
    (s.retentionValid = true → ∃ t, exec .powerUp s = .next t ∧ WarmStarted s t .power 0) ∧
    ∀ (f : RxFrame) (rest : List RxFrame) (e : Entry), Takes .resetNode s f rest e → f.count = 2 →
      (byteAt f.payload 1 = 1 → exec .resetNode s = .next (coldStarted s .command f.tag)) ∧
      (byteAt f.payload 1 = 2 → ∃ t, exec .resetNode s = .next t ∧ WarmStarted s t .command f.tag) ∧
      (byteAt f.payload 1 ≠ 1 → byteAt f.payload 1 ≠ 2 →
        exec .resetNode s = .next ((s.setRxQueue rest).refuse e f .resetKind .none 0))

/-- POWER_FAIL loses all volatile state and no retained one (R183); while the supply is absent the volatile registers stand at
their start values (the model's choice, log entry 6). RETENTION_SUPPLY_LOSS loses the retention domain and its mark (R183); what
the domain then holds is the free value of log entry 7. -/
def Obligations.SupplyLossesClearTheirDomains : Prop :=
  ∀ s : State,
    exec .powerFail s = .next { s with powered := false, tp := {}, ru := {}, lc := {}, fp := {}, counters := {} } ∧
    exec .retentionSupplyLoss s = .next
      { s with ret := Config.lostRetention s.freeCount, retentionValid := false, freeCount := s.freeCount + 1 }

/-! ### The Trunk Port (05) -/

/-- FRAME_BEGIN (R91, R92): in OPEN a content byte begins a frame; with an entry free the frame is received into it, and
receive-ready falls with the last free entry; without one OVERRUN rises and the receiver enters DISCARD. CONTENT_BYTE and
OVERSIZE_BYTE (R90, R94, R186): in RECEIVE a byte is stored after escapes are removed; a pair counts once, at its escape (log
entry 14); a pair that stands for no byte is an escape error; a 61st content byte drops the frame. GAP_EXPIRY (R93) drops a frame
in reception. In HUNT and DISCARD a content byte is ignored, DELIMITER (R90) opens the next frame from every state but RECEIVE,
and the gap timer runs in RECEIVE alone. -/
def Obligations.ReceiverTakesBytes : Prop :=
  ∀ (s : State) (b : Byte), s.powered = true → b ≠ delimiterByte →
    (s.tp.receiver = .open →
      (s.tp.queue.length < 16 →
        let t := s.setReceiver (.receive ⟨if b = escapeByte then [] else [b], 1, b == escapeByte, false⟩)
        exec (.frameBegin b) s = .next t ∧ t.receiveReady = decide (s.tp.queue.length < 15)) ∧
      (16 ≤ s.tp.queue.length → exec (.frameBegin b) s = .next ((s.bump .overrun).setReceiver .discard))) ∧
    (s.tp.receiver = .hunt ∨ s.tp.receiver = .discard → exec (.contentByte b) s = .next s) ∧
    ((∀ r, s.tp.receiver ≠ .receive r) →
      exec .gapExpiry s = .next s ∧ exec .delimiter s = .next (s.setReceiver .open)) ∧
    ∀ r, s.tp.receiver = .receive r →
      (r.escaped = false → r.count < 60 → b ≠ escapeByte → exec (.contentByte b) s =
        .next (s.setReceiver (.receive { r with content := r.content ++ [b], count := r.count + 1 }))) ∧
      (r.escaped = false → r.count < 60 → b = escapeByte → exec (.contentByte b) s =
        .next (s.setReceiver (.receive { r with count := r.count + 1, escaped := true }))) ∧
      (r.escaped = true → r.count ≤ 60 → b = 0x85 → exec (.contentByte b) s =
        .next (s.setReceiver (.receive { r with content := r.content ++ [delimiterByte], escaped := false }))) ∧
      (r.escaped = true → r.count ≤ 60 → b = 0x7A → exec (.contentByte b) s =
        .next (s.setReceiver (.receive { r with content := r.content ++ [escapeByte], escaped := false }))) ∧
      (r.escaped = true → r.count ≤ 60 → b ≠ 0x85 → b ≠ 0x7A → exec (.contentByte b) s =
        .next (s.setReceiver (.receive { r with escaped := false, broken := true }))) ∧
      (r.escaped = false → 60 ≤ r.count →
        exec (.oversizeByte b) s = .next ((s.bump .oversize).setReceiver .discard)) ∧
      exec .gapExpiry s = .next ((s.bump .gap).setReceiver .hunt)

/-- FRAME_CLOSE (R95, R96): an escape error, fewer than 12 bytes or a wrong CRC-32 drops the frame, counts TRUNK_CHECK and raises
its alarm; more payload than stated drops it and counts OVERSIZE; any other frame stands at the tail of the queue. -/
def Obligations.FrameCloseChecks : Prop :=
  ∀ (s : State) (r : Reception), s.powered = true → s.tp.receiver = .receive r →
    let n := r.content.length
    let body := r.content.take (n - 4)
    let bad := r.broken = true ∨ r.escaped = true ∨ n < 12 ∨ r.content.drop (n - 4) ≠ beBytes 4 (crc32 body).toNat
    let f : RxFrame := ⟨body.take 8, body.drop 8⟩
    let u := s.setReceiver .open
    (bad → exec .frameClose s = .next ((u.bump .trunkCheck).raise .trunkCheck)) ∧
    (¬ bad → f.statedLength < n - 12 → exec .frameClose s = .next (u.bump .oversize)) ∧
    (¬ bad → n - 12 ≤ f.statedLength → exec .frameClose s = .next (u.setRxQueue (s.tp.queue ++ [f])))

/-- The framing of R99 and the reception of R90 to R96 agree: the bytes of a frame as a sender escapes and checks them, put on TRX
after any run that left no frame in reception, leave exactly that frame at the tail of the queue. -/
def Obligations.FramedBytesAreReceived : Prop :=
  ∀ (s : State) (header payload : List Byte), s.powered = true → (∀ r, s.tp.receiver ≠ .receive r) →
    s.tp.queue.length < 16 → header.length = 8 → payload.length ≤ 48 →
    payload.length ≤ (RxFrame.mk header payload).statedLength →
    (wireFrame (header ++ payload)).foldl State.receiveByte s =
      (s.setReceiver .open).setRxQueue (s.tp.queue ++ [⟨header, payload⟩])

/-- TRANSMIT_TAKE and REPORT_FRAME_SENT (R98 to R100): in IDLE with modem-ready asserted the holder's record is taken first, else
the oldest of the queue, and its frame carries the source id in effect, or for a RESTART the id in effect at its start's
completion, which is the configured id it reports (R185 over R99, the model's choice, log entry 35); otherwise nothing is taken.
The end of the frame returns the transmitter to IDLE whatever modem-ready does. -/
def Obligations.TransmitterTakesHolderFirst : Prop :=
  ∀ s : State,
    let source (r : Report) : Nat := match r.body with
      | .restart b => b.nodeId
      | _ => s.fp.idInEffect
    (s.powered = true → s.tp.transmitter = .idle →
      (∀ r, s.ru.holder = some r → exec (.transmitTake true) s = .next
        { s with ru := { s.ru with holder := none }, tp := { s.tp with transmitter := .sending r (r.wire (source r)) } }) ∧
      (∀ r rest, s.ru.holder = none → s.ru.queue = r :: rest → exec (.transmitTake true) s = .next
        { s with ru := { s.ru with queue := rest }, tp := { s.tp with transmitter := .sending r (r.wire (source r)) } }) ∧
      (s.ru.holder = none → s.ru.queue = [] → exec (.transmitTake true) s = .next s) ∧
      exec (.transmitTake false) s = .next s) ∧
    (∀ r wire ready, s.tp.transmitter = .sending r wire →
      exec (.transmitTake ready) s = .next s ∧
      exec .reportFrameSent s = .next { s with tp := { s.tp with transmitter := .idle } })

/-! ### The Frame Classifier (04) -/

/-- FRAME_TAKEN: a foreign frame is dropped and counted; a length that disagrees or exceeds 48, a slot index above 384, and a
class at or above the limit or without an entry are refused whatever the report mode (R78, R79); a NODE_CONTROL or
SET_ACCOUNT_STATE frame without a known subcommand is refused SUBCOMMAND, for SET_ACCOUNT_STATE after the LENGTH check (R9, R83,
R178). Each frees the entry the frame occupied (R72). -/
def Obligations.UnhandledFramesDroppedOrRefused : Prop :=
  ∀ (s : State) (f : RxFrame) (rest : List RxFrame), s.powered = true → s.tp.queue = f :: rest →
    let u := s.setRxQueue rest
    let forUs := f.destination = s.fp.idInEffect ∨ f.destination = 65535
    let lengthOk := f.statedLength = f.payload.length ∧ f.statedLength ≤ 48
    (¬ forUs → exec .frameTaken s = .next (u.bump .foreignTrunk)) ∧
    (forUs → ¬ lengthOk → exec .frameTaken s =
      .next (u.hand (refusalRecord f .header .headerLength .none f.payload.length))) ∧
    (forUs → lengthOk → 384 < f.slot → exec .frameTaken s =
      .next (u.hand (refusalRecord f .header .slotRange .none f.slot))) ∧
    (forUs → lengthOk → f.slot ≤ 384 → s.ret.limit ≤ f.cls ∨ s.entry f.cls = none → exec .frameTaken s =
      .next (u.hand (refusalRecord f .disposition .noDisposition .disposition f.cls))) ∧
    (∀ e, Takes .frameTaken s f rest e →
      (e.handler = .nodeControl → exec .frameTaken s = .next (u.refuse e f .subcommand .none 0)) ∧
      (e.handler = .setAccountState → f.count ≠ 6 → exec .frameTaken s = .next (u.refuse e f .length .none 0)) ∧
      (e.handler = .setAccountState → f.count = 6 → exec .frameTaken s = .next (u.refuse e f .subcommand .account f.slot)))

/-- AUTHORITY and TARGET (R80 to R82, R88): an authority weaker than the ceiling, then a slot index of the wrong kind, a broadcast
naming an account, an account present or EMPTY against the handler's need, a payload without a kit id, a kit id that differs: the
first that fails refuses the frame and changes nothing else. The refusal is handed over under ALL and REFUSALS_ONLY and suppressed
under SILENT, here and at CONTENT, whose refusals are handed over by `refuse`. -/
def Obligations.AuthorityAndTargetRefuse : Prop :=
  (∀ (u : State) (e : Entry) (f : RxFrame) (record : Report) (r : Reason) (t : TableId) (i : Nat),
    (e.mode = .all ∨ e.mode = .refusalsOnly →
      u.handRefusal e.mode record = u.hand record ∧ u.refuse e f r t i = u.hand (refusalRecord f .content r t i)) ∧
    (e.mode = .silent → u.handRefusal e.mode record = u ∧ u.refuse e f r t i = u)) ∧
  ∀ (s : State) (f : RxFrame) (rest : List RxFrame) (e : Entry), s.powered = true → s.tp.queue = f :: rest →
    f.destination = s.fp.idInEffect ∨ f.destination = 65535 → f.statedLength = f.count → f.statedLength ≤ 48 →
    f.slot ≤ 384 → f.cls < s.ret.limit → s.entry f.cls = some e →
    let refused (stage : Stage) (r : Reason) (t : TableId) (i : Nat) :=
      (e.mode = .all ∨ e.mode = .refusalsOnly →
        exec (commandFor e.handler f) s = .next ((s.setRxQueue rest).hand (refusalRecord f stage r t i))) ∧
      (e.mode = .silent → exec (commandFor e.handler f) s = .next (s.setRxQueue rest))
    let target (r : Reason) := refused .target r .account f.slot
    let fits := match e.handler.target with
      | .node => f.slot = 0
      | .account => 1 ≤ f.slot
      | .nodeOrAccount | .any => True
    let naming := e.handler.target = .account ∨ e.handler.target = .nodeOrAccount ∧ 1 ≤ f.slot
    (e.ceiling < f.authority → refused .authority .noReason .disposition f.cls) ∧
    (f.authority ≤ e.ceiling → ¬ fits → target .slotKind) ∧
    (f.authority ≤ e.ceiling → fits → naming → f.destination = 65535 → target .broadcastAccount) ∧
    (f.authority ≤ e.ceiling → fits → naming → f.destination ≠ 65535 →
      (e.handler = .loadAccount → (s.account f.slot).isSome → target .accountPresent) ∧
      (e.handler ≠ .loadAccount → s.account f.slot = none → target .accountEmpty) ∧
      (∀ a, e.handler ≠ .loadAccount → s.account f.slot = some a →
        (f.count < 4 → target .noKitId) ∧ (4 ≤ f.count → f.kitId ≠ a.kitId → target .kitMismatch)))

/-- A frame whose payload fits no layout of its handler is refused CONTENT LENGTH, table NONE, index 0, and changes nothing (R83,
R188); for APPLY_VOUCHER and ADJUST_CREDIT the refusal carries the account's figures, for the latter without h (R32, R40 and R83
read together, the model's choice, log entry 17). DISCARD takes any length: its frame changes nothing and makes a RECEIPT with its
class and payload length under ALL alone (R84), with the frame's own slot index (the model's choice, log entry 22). -/
def Obligations.LengthCheckedButByDiscard : Prop :=
  ∀ (s : State) (f : RxFrame) (rest : List RxFrame) (e : Entry),
    let u := s.setRxQueue rest
    let figures : Option AccountFigures := match e.handler with
      | .applyVoucher => (s.account f.slot).map fun a => ⟨a.balance, a.allowance, a.arrears, a.window.map Window.h⟩
      | .adjustCredit => (s.account f.slot).map fun a => ⟨a.balance, a.allowance, a.arrears, none⟩
      | _ => none
    (∀ c, Takes c s f rest e → layoutFits e.handler f = false →
      exec c s = .next (u.handRefusal e.mode (refusalRecord f .content .length .none 0 figures))) ∧
    (Takes .discard s f rest e →
      (e.mode = .all → exec .discard s = .next (u.hand ⟨f.tag, f.slot, .receipt (.discard f.cls f.count)⟩)) ∧
      (e.mode ≠ .all → exec .discard s = .next u))

/-- LOAD_DISPOSITION (R75, R76): class range, fixed entry, entry fields, control ceiling and limit range are checked in this
order; then the entry, and the limit where the frame has one, are written together, and the RECEIPT shows both as they stand. -/
def Obligations.LoadDispositionChecksAndWrites : Prop :=
  ∀ (s : State) (f : RxFrame) (rest : List RxFrame) (e : Entry), Takes .loadDisposition s f rest e →
    f.count = 5 ∨ f.count = 6 →
    let u := s.setRxQueue rest
    let p := f.payload
    let cls := byteAt p 0
    let present := byteAt p 1
    let isFixed := ∃ x, s.entry cls = some x ∧ x.fixed = true
    let fieldsBad := 15 < byteAt p 2 ∨ 3 < byteAt p 3 ∨ byteAt p 4 = 0 ∨ 3 < byteAt p 4
    let weak := (byteAt p 2 = 0 ∨ byteAt p 2 = 1) ∧ byteAt p 3 ≠ 0
    let limitBad := f.count = 6 ∧ (byteAt p 5 < 4 ∨ 64 < byteAt p 5)
    let limit := if f.count = 6 then byteAt p 5 else s.ret.limit
    let refused (r : Reason) (i : Nat) := exec .loadDisposition s = .next (u.refuse e f r .disposition i)
    let written (x : Option Entry) := exec .loadDisposition s = .next
      (({ u with ret := { u.ret with entries := u.ret.entries.setIfInBounds cls x, limit := limit } } : State).receipt e f
        (.loadDisposition cls x limit))
    present ≤ 1 →
      (63 < cls → refused .classRange cls) ∧
      (cls ≤ 63 → isFixed → refused .fixedEntry cls) ∧
      (cls ≤ 63 → ¬ isFixed → present = 1 → fieldsBad → refused .entryFields cls) ∧
      (cls ≤ 63 → ¬ isFixed → present = 1 → ¬ fieldsBad → weak → refused .controlCeiling cls) ∧
      (cls ≤ 63 → ¬ isFixed → (present = 1 → ¬ fieldsBad ∧ ¬ weak) → limitBad → refused .limitRange (byteAt p 5)) ∧
      (cls ≤ 63 → ¬ isFixed → ¬ limitBad → present = 0 → written none) ∧
      (cls ≤ 63 → ¬ isFixed → ¬ limitBad → present = 1 → ¬ fieldsBad → ¬ weak →
        ∃ h m, Handler.ofCode (byteAt p 2) = some h ∧ ReportMode.ofCode (byteAt p 4) = some m ∧
          written (some ⟨h, byteAt p 3, m, false⟩))

/-! ### Node Control's subcommands (06, 07, 10, 11) -/

/-- SET_IDENTITY (R179) and SET_CONFIG (R180): the range checks, the broadcast check, and the configured values replaced at once;
the identity in effect stays until the next cycle start. -/
def Obligations.IdentityAndConfigWritten : Prop :=
  ∀ (s : State) (f : RxFrame) (rest : List RxFrame) (e : Entry),
    let u := s.setRxQueue rest
    let p := f.payload
    (Takes .setIdentity s f rest e → f.count = 4 →
      let id := field p 1 2
      (id = 0 ∨ id = 65535 → exec .setIdentity s = .next (u.refuse e f .identityRange .none 0)) ∧
      (id ≠ 0 → id ≠ 65535 → f.destination = 65535 →
        exec .setIdentity s = .next (u.refuse e f .identityBroadcast .none 0)) ∧
      (id ≠ 0 → id ≠ 65535 → f.destination ≠ 65535 → exec .setIdentity s = .next
        (({ u with ret := { u.ret with nodeId := id, rank := byteAt p 3 } } : State).receipt e f
          (.setIdentity id (byteAt p 3) s.fp.idInEffect s.fp.rankInEffect)))) ∧
    (Takes .setConfig s f rest e → f.count = 5 →
      let ok := byteAt p 1 ≤ 6 ∧ 1 ≤ byteAt p 2 ∧ 8 ≤ byteAt p 3 ∧ 1 ≤ byteAt p 4 ∧ byteAt p 4 ≤ 16
      let c : NodeConfig := ⟨byteAt p 1, byteAt p 2, byteAt p 3, byteAt p 4⟩
      (¬ ok → exec .setConfig s = .next (u.refuse e f .configFields .none 0)) ∧
      (ok → exec .setConfig s =
        .next (({ u with ret := { u.ret with config := c } } : State).receipt e f (.setConfig c))))

/-- SET_CYCLE (R106): a shadow within the ranges of R105 is held for the next cycle start, and its RECEIPT carries the cycle
number. SET_MODE (R117): the requested mode is set and the mode in force is left as it is. -/
def Obligations.CycleAndModeRequested : Prop :=
  ∀ (s : State) (f : RxFrame) (rest : List RxFrame) (e : Entry),
    let u := s.setRxQueue rest
    let p := f.payload
    (Takes .setCycle s f rest e → f.count = 8 →
      let c : CycleParams := ⟨field p 1 2, byteAt p 3, field p 4 2, field p 6 2⟩
      let ok := 100 ≤ c.slotLength ∧ c.slotLength ≤ 2000 ∧ c.slotLength % 10 = 0 ∧ 2 ≤ c.contentionCount ∧
        c.contentionCount ≤ 8 ∧ c.gap ≤ 3600 ∧ 20 ≤ c.replyWindow ∧ c.replyWindow ≤ 500 ∧ c.replyWindow % 10 = 0 ∧
        c.replyWindow < c.slotLength
      (¬ ok → exec .setCycle s = .next (u.refuse e f .cycleFields .none 0)) ∧
      (ok → exec .setCycle s =
        .next (({ u with fp := { u.fp with shadow := some c } } : State).receipt e f (.setCycle c s.fp.cycle)))) ∧
    (Takes .setMode s f rest e → f.count = 2 →
      let applied (m : Mode) := exec .setMode s =
        .next (({ u with ret := { u.ret with requested := m } } : State).receipt e f (.setMode m s.fp.effective))
      (byteAt p 1 = 1 → applied .run) ∧ (byteAt p 1 = 2 → applied .drain) ∧ (byteAt p 1 = 3 → applied .quiet) ∧
      (byteAt p 1 = 0 ∨ 3 < byteAt p 1 → exec .setMode s = .next (u.refuse e f .modeCode .none 0)))

/-- FIELD_RESET (R137, R160): the Caller Queue and every bring-up part are emptied, links in BRINGUP become ABSENT with their
placements released, BOUND links become SILENT, every held probe ends with a PROBE_RESULT NO_ECHO in slot-index order, and the
RECEIPT carries the three numbers. The cycle number of a result made outside its wake is the free value of log entry 21; that the
bring-ups are counted as the links in BRINGUP is the model's choice (log entry 25). -/
def Obligations.FieldResetSilencesAndAbandons : Prop :=
  ∀ (s : State) (f : RxFrame) (rest : List RxFrame) (e : Entry), Takes .fieldReset s f rest e → f.count = 1 →
    let held := slotIndices.filter fun k => (s.linkVol k).probe.isSome
    let result (k : Nat) : Option Report := (s.linkVol k).probe.map fun p =>
      ⟨p.tag, k, .probeResult (((s.account k).map Account.kitId).getD 0) p .noEcho (s.droppedCycle k)⟩
    ∃ v : State, LinksReset s v ∧
      v = { s with
        ret := { s.ret with calendar := v.ret.calendar, links := v.ret.links }
        tp := { s.tp with queue := rest }
        lc := { s.lc with
          callers := []
          links := s.lc.links.map fun w => { w.clearBringup with probe := none }
          exchange := s.lc.exchange.map fun x =>
            if s.probeWake x.slot = true ∧ x.slot ∈ held then { x with kind := .probe none } else x } } ∧
      exec .fieldReset s = .next ((v.handAll (held.filterMap result)).receipt e f
        (.fieldReset (s.countLinks LinkState.inBringup) (s.countLinks fun l => l == .bound) held.length))

/-- CLEAR_ESCALATION (R171): refused while the holder holds a record, else the flag is cleared and its RECEIPT shows it as it was.
SET_ALARM_MASK (R174): the mask takes the nine flags of the frame. -/
def Obligations.EscalationClearedAndMaskSet : Prop :=
  ∀ (s : State) (f : RxFrame) (rest : List RxFrame) (e : Entry),
    let u := s.setRxQueue rest
    (Takes .clearEscalation s f rest e → f.count = 1 →
      (∀ r, s.ru.holder = some r → exec .clearEscalation s = .next (u.refuse e f .holderOccupied .none 0)) ∧
      (s.ru.holder = none → exec .clearEscalation s =
        .next (({ u with ru := { u.ru with escalated := false } } : State).receipt e f (.clearEscalation s.ru.escalated)))) ∧
    (Takes .setAlarmMask s f rest e → f.count = 3 →
      let m : AlarmFlags := BitVec.ofNat 9 (byteAt f.payload 1 * 256 + byteAt f.payload 2)
      exec .setAlarmMask s =
        .next (({ u with ru := { u.ru with mask := m } } : State).receipt e f (.setAlarmMask m)))

/-- READ_STATUS (R175, R176): one NODE_STATUS under every report mode, composed before the clear; with the clear option the causes
and tallies named become clear, before the reply is judged for admission. -/
def Obligations.ReadStatusCopiesThenClears : Prop :=
  ∀ (s : State) (f : RxFrame) (rest : List RxFrame) (e : Entry), Takes .readStatus s f rest e →
    let u := s.setRxQueue rest
    let p := f.payload
    let reply : Report := ⟨f.tag, 0, .nodeStatus
      { nodeId := s.fp.idInEffect, rank := s.fp.rankInEffect, alarms := s.ru.alarms, mask := s.ru.mask
        tallies := s.ru.tallies, escalated := s.ru.escalated
        holder := s.ru.holder.map fun r => (r.slot, r.quarantineKit)
        fill := s.ru.queue.length, requested := s.ret.requested, effective := s.fp.effective, active := s.ret.active
        shadow := s.fp.shadow, cycle := s.fp.cycle, history := s.fp.history, clock := s.ret.clock }⟩
    (f.count = 2 → byteAt p 1 = 0 → exec .readStatus s = .next (u.hand reply)) ∧
    (f.count = 5 → byteAt p 1 = 1 →
      let m := byteAt p 2 * 256 + byteAt p 3
      let tally (bit : Nat) (n : Nat) := if (byteAt p 4).testBit bit then 0 else n
      ∃ alarms : AlarmFlags,
        (∀ i < 9, alarms.getLsbD i = (s.ru.alarms.getLsbD i && !m.testBit i)) ∧
        exec .readStatus s = .next (State.hand
          { u with ru := { u.ru with
              alarms := alarms
              tallies := ⟨tally 4 s.ru.tallies.receipt, tally 3 s.ru.tallies.refusal, tally 2 s.ru.tallies.reply,
                tally 1 s.ru.tallies.other, tally 0 s.ru.tallies.advisory⟩ } } reply))

/-- CLOCK_SECOND (R181): an UNSET clock stands; a SET clock counts seconds and days, and its day saturates. SET_TIME (R182): the
second's range, the authority of a force, and a day that goes back without one are refused in this order; else the clock is SET at
the frame's day and second, and the RECEIPT carries the clock before and after. That its "force used" is the flag as the frame
sets it is the model's choice (log entry 37). -/
def Obligations.ClockCountsAndIsSet : Prop :=
  ∀ s : State,
    let was := s.ret.clock
    let ticks (c : Clock) := exec .clockSecond s = .next { s with ret := { s.ret with clock := c } }
    (was.isSet = false → exec .clockSecond s = .next s) ∧
    (was.isSet = true → was.second + 1 < 86400 → ticks ⟨true, was.day, was.second + 1⟩) ∧
    (was.isSet = true → 86400 ≤ was.second + 1 → was.day < 65535 → ticks ⟨true, was.day + 1, 0⟩) ∧
    (was.isSet = true → 86400 ≤ was.second + 1 → was.day = 65535 → ticks ⟨true, 65535, 0⟩) ∧
    ∀ (f : RxFrame) (rest : List RxFrame) (e : Entry), Takes .setTime s f rest e → f.count = 6 →
      let u := s.setRxQueue rest
      let day := field f.payload 0 2
      let second := field f.payload 2 3
      let force := byteAt f.payload 5
      let back := was.isSet = true ∧ day < was.day ∧ force = 0
      let refused (r : Reason) := exec .setTime s = .next (u.refuse e f r .none 0)
      force ≤ 1 →
        (86400 ≤ second → refused .timeRange) ∧
        (second < 86400 → force = 1 → f.authority ≠ 0 → refused .authorityForce) ∧
        (second < 86400 → (force = 1 → f.authority = 0) → back → refused .timeRegress) ∧
        (second < 86400 → (force = 1 → f.authority = 0) → ¬ back → exec .setTime s = .next
          (({ u with ret := { u.ret with clock := ⟨true, day, second⟩ } } : State).receipt e f
            (.setTime was.isSet (if was.isSet then was.day else 0) (if was.isSet then was.second else 0) day second
              (force == 1))))

/-! ### Reads and services of a kit's link (03, 09) -/

/-- READ_COUNTERS (R156 to R158): slot index 0 reads the node's set with the cycle number, any other the kit's link as it stands;
the clear option zeroes the set read after the copy. The reply is handed over under every report mode. -/
def Obligations.ReadCountersCopiesThenClears : Prop :=
  ∀ (s : State) (f : RxFrame) (rest : List RxFrame) (e : Entry), Takes .readCounters s f rest e →
    let u := s.setRxQueue rest
    let nodeReply : Report := ⟨f.tag, 0, .nodeCounters s.counters s.fp.cycle⟩
    let v := s.linkVol f.slot
    let linkReply : Report := ⟨f.tag, f.slot, .linkCounters f.kitId (s.link f.slot) v⟩
    (f.slot = 0 → f.count = 1 →
      (byteAt f.payload 0 = 0 → exec .readCounters s = .next (u.hand nodeReply)) ∧
      (byteAt f.payload 0 = 1 → exec .readCounters s = .next (({ u with counters := {} } : State).hand nodeReply))) ∧
    (1 ≤ f.slot → f.count = 5 →
      (byteAt f.payload 4 = 0 → exec .readCounters s = .next (u.hand linkReply)) ∧
      (byteAt f.payload 4 = 1 → exec .readCounters s = .next ((u.setLinkVol f.slot
        { v with goodFrames := 0, missedWakes := 0, failedFrames := 0, correctedBlocks := 0 }).hand linkReply)))

/-- RELAY_TO_KIT (R67): 1 to 24 bytes are held for the kit with the frame's tag and count 0; none, more, or a payload already held
is refused. PROBE_KIT (R159): at most four forced errors, a link BOUND or SILENT and no probe held, in this order; then the probe
is held under the frame's tag. -/
def Obligations.RelayAndProbeAreHeld : Prop :=
  ∀ (s : State) (f : RxFrame) (rest : List RxFrame) (e : Entry) (a : Account), s.account f.slot = some a →
    let u := s.setRxQueue rest
    let p := f.payload
    (Takes .relayToKit s f rest e →
      let refused (r : Reason) := exec .relayToKit s = .next (u.refuse e f r .account f.slot)
      (f.count = 4 ∨ 28 < f.count → refused .relayLength) ∧
      (4 < f.count → f.count ≤ 28 → a.relay.isSome → refused .relayBusy) ∧
      (4 < f.count → f.count ≤ 28 → a.relay = none → exec .relayToKit s = .next
        ((u.setAccount f.slot (some { a with relay := some ⟨p.drop 4, f.tag, 0⟩ })).receipt e f
          (.relayToKit (f.count - 4))))) ∧
    (Takes .probeKit s f rest e → f.count = 7 →
      let refused (r : Reason) := exec .probeKit s = .next (u.refuse e f r .account f.slot)
      let seed := field p 4 2
      let forced := byteAt p 6
      let v := s.linkVol f.slot
      let reachable := (s.link f.slot).state = .bound ∨ (s.link f.slot).state = .silent
      (4 < forced → refused .probeFields) ∧
      (forced ≤ 4 → ¬ reachable → refused .linkState) ∧
      (forced ≤ 4 → reachable → v.probe.isSome → refused .probeBusy) ∧
      (forced ≤ 4 → reachable → v.probe = none → exec .probeKit s = .next
        ((u.setLinkVol f.slot { v with probe := some ⟨seed, forced, f.tag⟩ }).receipt e f (.probeKit seed forced))))

/-! ### Plans (02) -/

/-- LOAD_PLAN (R26, R27): the plan number, then the conditions on the fields as a whole; a plan newly present starts with use
count 0 and a replaced one keeps its count. Prices and ceilings beyond the tier count are not read. -/
def Obligations.LoadPlanChecksAndWrites : Prop :=
  ∀ (s : State) (f : RxFrame) (rest : List RxFrame) (e : Entry), Takes .loadPlan s f rest e → f.count = 34 →
    let u := s.setRxQueue rest
    let p := f.payload
    let number := byteAt p 0
    let n := byteAt p 3
    let price (k : Nat) := field p (4 + 2 * k) 2
    let ceiling (k : Nat) := field p (12 + 3 * k) 3
    let ok := 1 ≤ n ∧ n ≤ 4 ∧ (∀ k < n, 1 ≤ price k) ∧ (∀ k < n - 1, 1 ≤ ceiling k) ∧
      (∀ k < n - 2, ceiling k < ceiling (k + 1)) ∧ 1 ≤ field p 21 3 ∧ 1 ≤ field p 25 2 ∧ field p 27 2 < field p 25 2 ∧
      byteAt p 29 ≤ 3 ∧ 1 ≤ field p 32 2
    let uses := match s.plan number with
      | some q => q.useCount
      | none => 0
    (15 < number → exec .loadPlan s = .next (u.refuse e f .planNumber .plan number)) ∧
    (number ≤ 15 → ¬ ok → exec .loadPlan s = .next (u.refuse e f .planFields .plan number)) ∧
    (number ≤ 15 → ok → exec .loadPlan s = .next ((u.setPlan number (some
      { fee := field p 1 2
        prices := (List.range n).map price
        ceilings := (List.range (n - 1)).map ceiling
        creditCeiling := field p 21 3
        periodLength := byteAt p 24
        dose := field p 25 2
        lowWater := field p 27 2
        boostLimit := byteAt p 29
        arrearsLimit := field p 30 2
        usageStep := field p 32 2
        useCount := uses })).receipt e f (.loadPlan number (s.plan number).isNone uses (field p 21 3))))

/-- UNLOAD_PLAN (R28): a number above 15, an absent plan and a plan in use are refused with table PLAN and the number; else the
plan becomes absent, and every account still names a present plan. -/
def Obligations.UnloadPlanFreesUnusedPlan : Prop :=
  ∀ (s : State) (f : RxFrame) (rest : List RxFrame) (e : Entry), Takes .unloadPlan s f rest e → f.count = 1 →
    let u := s.setRxQueue rest
    let n := byteAt f.payload 0
    let refused (r : Reason) := exec .unloadPlan s = .next (u.refuse e f r .plan n)
    (15 < n → refused .planNumber) ∧
    (n ≤ 15 → s.plan n = none → refused .noPlan) ∧
    (∀ q, s.plan n = some q → 0 < q.useCount → refused .planInUse) ∧
    (∀ q, s.plan n = some q → q.useCount = 0 → ∃ t, exec .unloadPlan s = .next (t.receipt e f (.unloadPlan n)) ∧
      t = u.setPlan n none ∧ t.plan n = none ∧
      (s.UseCountsAgree → ∀ slot a, t.account slot = some a → (t.plan a.plan).isSome))

/-- READ_PLAN (R29): a number above 15 is refused PLAN_NUMBER, with no table, as R29 names none; else one PLAN_IMAGE under every
report mode, with the whole plan or, for an absent plan, its number, an absent indication and zeros. Nothing but the Report Unit
changes. -/
def Obligations.ReadPlanAnswersImage : Prop :=
  ∀ (s : State) (f : RxFrame) (rest : List RxFrame) (e : Entry), Takes .readPlan s f rest e → f.count = 1 →
    let u := s.setRxQueue rest
    let n := byteAt f.payload 0
    (15 < n → exec .readPlan s = .next (u.refuse e f .planNumber .none 0)) ∧
    (n ≤ 15 → ∃ t, exec .readPlan s = .next t ∧ t = u.hand ⟨f.tag, f.slot, .planImage n (s.plan n)⟩ ∧
      t = { u with ru := t.ru }) ∧
    (n ≤ 15 → s.plan n = none →
      (Body.planImage n (s.plan n)).bytes = BitVec.ofNat 8 n :: List.replicate 36 (0 : Byte))

/-! ### Accounts (01) -/

/-- LOAD_ACCOUNT (R14, R15, R22): the five checks in order, the record of a fresh account, the plan's use count, and the link's
history, confirmed figures (R139) and counters emptied. A plan number above 15 counts as absent (the model's choice, log entry
18), and the consecutive misses and the report-taken flag stay (the model's choice, log entry 24). -/
def Obligations.LoadAccountChecksAndFills : Prop :=
  ∀ (s : State) (f : RxFrame) (rest : List RxFrame) (e : Entry), Takes .loadAccount s f rest e → f.count = 19 →
    let u := s.setRxQueue rest
    let p := f.payload
    let kitId := field p 0 4
    let n := byteAt p 4
    let balance := field p 5 3
    let arrears := field p 8 2
    let given (bit v : Nat) : Option Nat := if (byteAt p 10).testBit bit then some v else none
    let h := given 0 (field p 11 3)
    let held := ∃ slot x, s.account slot = some x ∧ x.kitId = kitId
    let refused (r : Reason) (t : TableId) (i : Nat) := exec .loadAccount s = .next (u.refuse e f r t i)
    let a : Account :=
      { state := .loaded, kitId := kitId, plan := n, balance := balance, allowance := 0, arrears := arrears, carry := 0
        periodPurchase := 0
        periodStart := (given 1 (field p 14 2)).getD (if s.ret.clock.isSet then s.ret.clock.day else 0)
        window := h.map fun h => ⟨h, BitVec.allOnes 16⟩
        q := 0, pendingGrant := none, withdrawn := none, revokeDue := false, lockNoticeDue := false, relay := none
        baseline := given 2 (field p 16 3)
        rebaseDue := false, latch := ⟨false, false, false, false⟩, cause := none, boundOnce := false }
    let l := s.link f.slot
    let v := s.linkVol f.slot
    (kitId = 0 → refused .kitId .account f.slot) ∧
    (kitId ≠ 0 → s.plan n = none → refused .noPlan .plan n) ∧
    (∀ q, s.plan n = some q →
      (kitId ≠ 0 → held → refused .duplicateKit .account f.slot) ∧
      (kitId ≠ 0 → ¬ held → balance ≠ 0 → arrears ≠ 0 → refused .balanceArrears .account f.slot) ∧
      (kitId ≠ 0 → ¬ held → balance = 0 ∨ arrears = 0 → q.creditCeiling < balance → refused .ceiling .plan n) ∧
      (kitId ≠ 0 → ¬ held → balance = 0 ∨ arrears = 0 → balance ≤ q.creditCeiling →
        exec .loadAccount s = .next (((((u.setAccount f.slot (some a)).setPlan n
          (some { q with useCount := q.useCount + 1 })).setLink f.slot { l with history := [], figures := none }).setLinkVol
            f.slot { v with goodFrames := 0, missedWakes := 0, failedFrames := 0, correctedBlocks := 0 }).receipt e f
              (.loadAccount kitId n balance arrears h))))

/-- UNLOAD_ACCOUNT (R16, R17): the pending grant returned, the withdrawn grant and the relay payload dropped, the use count
lowered, the record EMPTY, the link ABSENT with its cells free and its queue entry gone, the held probe ended; and the records in
order: the Link Controller's, a clamp's NOTICE, the deferred REFUSAL, the closing IMAGE. That a cancelled unsent grant steps q
back in the IMAGE is the model's choice (log entry 15), as are the silence of an entry at DECLINING (log entry 23), the cycle
number of a probe dropped outside its wake, a free value (log entry 21), the tag 0 of the LINK record (log entry 22), and that
the slot's report-taken flag and consecutive misses are kept (log entry 24). Everything else the node holds is as it was. -/
def Obligations.UnloadAccountClosesSlot : Prop :=
  ∀ (s : State) (f : RxFrame) (rest : List RxFrame) (e : Entry) (a : Account), Takes .unloadAccount s f rest e →
    s.account f.slot = some a → f.count = 4 →
    let v := s.linkVol f.slot
    let amount := match a.pendingGrant with
      | some g => g.amount
      | none => 0
    let q := match a.pendingGrant with
      | some g => if g.sent then a.q else (a.q + 255) % 256
      | none => a.q
    let pay := min amount a.arrears
    let sum := a.balance + (amount - pay)
    let clamp : List Report := if a.pendingGrant.isSome ∧ 16777215 < sum then
      [⟨f.tag, f.slot, .notice (.balanceClamped (sum - 16777215))⟩] else []
    let refusal : List Report := match a.relay with
      | some r => [deferredRefusal f.slot r.tag .unloaded]
      | none => []
    let final : Account := { a with
      balance := if a.pendingGrant.isSome then min sum 16777215 else a.balance
      arrears := a.arrears - pay, q := q, pendingGrant := none, withdrawn := none, relay := none }
    let advisory : List Report := match v.progress with
      | some .declining | none => []
      | some p => [⟨0, f.slot, .link ((s.link f.slot).kitId.getD 0) (.bringupFailed .accountState p v.mismatches)⟩]
    let probe : List Report := match v.probe with
      | some p => [⟨p.tag, f.slot, .probeResult a.kitId p .noEcho (s.droppedCycle f.slot)⟩]
      | none => []
    ∃ t : State,
      t = { s with
        ret := { s.ret with accounts := t.ret.accounts, plans := t.ret.plans, calendar := t.ret.calendar, links := t.ret.links }
        tp := { s.tp with queue := rest }
        lc := { s.lc with
          links := t.lc.links
          callers := s.lc.callers.filter fun c => c.slot != f.slot
          exchange := if s.probeWake f.slot = true ∧ v.probe.isSome then
              s.lc.exchange.map fun x => { x with kind := .probe none }
            else s.lc.exchange } } ∧
      t.account f.slot = none ∧ (∀ k, k ≠ f.slot → t.account k = s.account k) ∧
      (∀ p, s.plan a.plan = some p → t.plan a.plan = some { p with useCount := p.useCount - 1 }) ∧
      (∀ n, n ≠ a.plan → t.plan n = s.plan n) ∧
      t.link f.slot = { s.link f.slot with state := .absent, kitId := none, placement := none } ∧
      (∀ k, k ≠ f.slot → t.link k = s.link k ∧ t.linkVol k = s.linkVol k) ∧
      (∀ p, (s.link f.slot).placement = some p → ∀ i ∈ p.cells, (t.ret.calendar[i]?).join = none) ∧
      (∀ i, (∀ p, (s.link f.slot).placement = some p → i ∉ p.cells) → t.ret.calendar[i]? = s.ret.calendar[i]?) ∧
      t.linkVol f.slot = { v with
        progress := none, page1 := none, page2 := none, mismatches := 0, declineCause := none, declineAge := 0, probe := none } ∧
      exec .unloadAccount s = .next (t.handAll
        (advisory ++ probe ++ clamp ++ refusal ++ [⟨f.tag, f.slot, .image final (s.periodExpired final)⟩]))

/-- SET_ACCOUNT_STATE (R7, R9 to R13): SUSPEND from LOADED, ACTIVE and LOCKED cancels a pending grant and sets both flags; RESUME
from SUSPENDED decides by bound once and credit; CLEAR_QUARANTINE from QUARANTINED leads to SUSPENDED; CHANGE_PLAN moves the plan
field and both use counts. Any other state is refused STATE, an absent plan NO_PLAN, a plan number above 15 among them (the
model's choice, log entry 18). Each RECEIPT shows the record after the change. -/
def Obligations.AccountStateCommands : Prop :=
  ∀ (c : Instr) (s : State) (f : RxFrame) (rest : List RxFrame) (e : Entry) (a : Account), Takes c s f rest e →
    s.account f.slot = some a → f.count = 6 →
    let u := s.setRxQueue rest
    let n := byteAt f.payload 5
    let applied (v : State) (cmd : AccountCommand) (b : Account) (clamp : List Report) := exec c s = .next
      (((v.setAccount f.slot (some b)).receipt e f (.setAccountState cmd a.state b.state b.balance b.allowance b.arrears b.q
        b.plan (b.window.map Window.h))).handAll clamp)
    let refused (r : Reason) := exec c s = .next (u.refuse e f r .account f.slot)
    let credit := 0 < a.balance ∨ 0 < a.allowance ∨ a.pendingGrant.isSome ∨ a.withdrawn.isSome
    (c = .suspend →
      (a.state = .suspended ∨ a.state = .quarantined → refused .state) ∧
      (a.state ≠ .suspended → a.state ≠ .quarantined →
        (a.pendingGrant = none →
          applied u .suspend { a with state := .suspended, revokeDue := true, lockNoticeDue := true } []) ∧
        (∀ g, a.pendingGrant = some g →
          let pay := min g.amount a.arrears
          let sum := a.balance + (g.amount - pay)
          applied u .suspend
            { a with
              state := .suspended, revokeDue := true, lockNoticeDue := true, pendingGrant := none
              balance := min sum 16777215, arrears := a.arrears - pay
              q := if g.sent then a.q else (a.q + 255) % 256
              withdrawn := if g.sent then some ⟨g.seq, g.amount⟩ else a.withdrawn }
            (if 16777215 < sum then [⟨f.tag, f.slot, .notice (.balanceClamped (sum - 16777215))⟩] else [])))) ∧
    (c = .resume →
      (a.state ≠ .suspended → refused .state) ∧
      (a.state = .suspended → a.boundOnce = false → applied u .resume { a with state := .loaded } []) ∧
      (a.state = .suspended → a.boundOnce = true → credit →
        applied u .resume { a with state := .active, lockNoticeDue := false } []) ∧
      (a.state = .suspended → a.boundOnce = true → ¬ credit → applied u .resume { a with state := .locked } [])) ∧
    (c = .clearQuarantine → n ≤ 1 →
      (a.state ≠ .quarantined → refused .state) ∧
      (a.state = .quarantined → applied u .clearQuarantine
        { a with state := .suspended, cause := none, rebaseDue := n == 1 || a.rebaseDue } [])) ∧
    (c = .changePlan →
      (s.plan n = none → refused .noPlan) ∧
      (∀ new, s.plan n = some new → n = a.plan → applied u .changePlan a []) ∧
      (∀ old new, s.plan n = some new → n ≠ a.plan → s.plan a.plan = some old →
        applied ((u.setPlan a.plan (some { old with useCount := old.useCount - 1 })).setPlan n
          (some { new with useCount := new.useCount + 1 })) .changePlan { a with plan := n } []))

/-- READ_ACCOUNT (R18): one IMAGE of the record as it stands, with the period-expired indicator, under every report mode; the
clear option then empties the latch. -/
def Obligations.ReadAccountAnswersImage : Prop :=
  ∀ (s : State) (f : RxFrame) (rest : List RxFrame) (e : Entry) (a : Account) (p : Plan), Takes .readAccount s f rest e →
    s.account f.slot = some a → s.plan a.plan = some p → f.count = 5 →
    let u := s.setRxQueue rest
    let clock := s.ret.clock
    let expired := clock.isSet && decide (0 < p.periodLength ∧ a.periodStart + p.periodLength ≤ clock.day)
    let image : Report := ⟨f.tag, f.slot, .image a expired⟩
    (byteAt f.payload 4 = 0 → exec .readAccount s = .next (u.hand image)) ∧
    (byteAt f.payload 4 = 1 → exec .readAccount s =
      .next ((u.setAccount f.slot (some { a with latch := ⟨false, false, false, false⟩ })).hand image))

/-! ### Vouchers and adjustments (01, 02) -/

/-- APPLY_VOUCHER (R30 to R38): the amount, the state, the window, the fee and the ceiling in order, each refusal with the
account's figures; else the working copy is written with the window in one action, a LOCKED account with a balance becomes ACTIVE,
and the RECEIPT shows the conversion. -/
def Obligations.ApplyVoucherConverts : Prop :=
  ∀ (s : State) (f : RxFrame) (rest : List RxFrame) (e : Entry) (a : Account) (p : Plan), Takes .applyVoucher s f rest e →
    s.account f.slot = some a → s.plan a.plan = some p → f.count = 10 →
    let u := s.setRxQueue rest
    let amount := field f.payload 4 3
    let n := field f.payload 7 3
    let refused (r : Reason) := exec .applyVoucher s = .next (u.handRefusal e.mode (refusalRecord f .content r .account f.slot
      (some ⟨a.balance, a.allowance, a.arrears, a.window.map Window.h⟩)))
    let clock := s.ret.clock
    let rolled := clock.isSet && decide (0 < p.periodLength ∧ a.periodStart + p.periodLength ≤ clock.day)
    let start := if rolled then a.periodStart + (clock.day - a.periodStart) / p.periodLength * p.periodLength else a.periodStart
    let sum := amount * 1000 + a.carry
    let w := walkTiers p.tiers (sum - p.fee * 1000) (if rolled then 0 else a.periodPurchase)
    let credit := w.credits.sum
    let pay := min credit a.arrears
    let balance := a.balance + credit - pay
    let window := windowAccept a.window n
    let unlocks := a.state = .locked ∧ 0 < balance
    let b : Account := { a with
      carry := w.money, periodPurchase := w.purchase, periodStart := start, balance := balance, arrears := a.arrears - pay
      window := some window
      state := if unlocks then .active else a.state
      lockNoticeDue := if unlocks then false else a.lockNoticeDue }
    let amountOk := 1 ≤ amount ∧ amount ≤ 1000000
    (¬ amountOk → refused .amountRange) ∧
    (amountOk → a.state = .quarantined → refused .quarantined) ∧
    (amountOk → a.state ≠ .quarantined →
      (windowTest a.window n = .duplicate → refused .duplicate) ∧
      (windowTest a.window n = .stale → refused .stale) ∧
      (windowTest a.window n = .accept →
        (sum < p.fee * 1000 → refused .feeShort) ∧
        (p.fee * 1000 ≤ sum → p.creditCeiling < balance → refused .ceiling) ∧
        (p.fee * 1000 ≤ sum → balance ≤ p.creditCeiling → exec .applyVoucher s = .next
          ((u.setAccount f.slot (some b)).receipt e f (.applyVoucher
            { kitId := a.kitId, s := n, amount := amount, fee := p.fee, tierCredits := w.credits, credit := credit, pay := pay
              balance := balance, arrears := a.arrears - pay, carry := w.money, periodPurchase := w.purchase
              rolled := rolled, h := window.h, state := b.state })))))

/-- ADJUST_CREDIT (R40 to R43): the amount's range, QUARANTINED and the ceiling are refused with B, G and R; forgiveness lowers
the arrears, a positive delta pays arrears and adds the rest, any other removes at most the balance, with a NOTICE where it is
clamped; then the state test. The refusal carries no h (the model's reading of R40, log entry 17). -/
def Obligations.AdjustCreditCorrects : Prop :=
  ∀ (s : State) (f : RxFrame) (rest : List RxFrame) (e : Entry) (a : Account) (p : Plan), Takes .adjustCredit s f rest e →
    s.account f.slot = some a → s.plan a.plan = some p → f.count = 10 →
    let u := s.setRxQueue rest
    let raw := field f.payload 4 4
    let delta : Int := if raw < 2 ^ 31 then raw else (raw : Int) - 2 ^ 32
    let x := delta.natAbs
    let refused (r : Reason) := exec .adjustCredit s = .next (u.handRefusal e.mode
      (refusalRecord f .content r .account f.slot (some ⟨a.balance, a.allowance, a.arrears, none⟩)))
    let forgiven := min (field f.payload 8 2) a.arrears
    let owed := a.arrears - forgiven
    let paid := min x owed
    let removed := min x a.balance
    let tested (b : Account) : Account :=
      if b.state = .locked ∧ 0 < b.balance then { b with state := .active, lockNoticeDue := false }
      else if b.state = .active ∧ b.balance = 0 ∧ b.allowance = 0 ∧ b.pendingGrant = none ∧ b.withdrawn = none then
        { b with state := .locked, lockNoticeDue := true }
      else b
    let applied (b : Account) (added removed paid : Nat) (clamp : List Report) := exec .adjustCredit s = .next
      (((u.setAccount f.slot (some b)).receipt e f (.adjustCredit
        ⟨a.kitId, delta, forgiven, added, removed, paid, b.balance, b.allowance, b.arrears, b.state⟩)).handAll clamp)
    (16777215 < x → refused .amountRange) ∧
    (x ≤ 16777215 → a.state = .quarantined → refused .quarantined) ∧
    (x ≤ 16777215 → a.state ≠ .quarantined →
      (0 < delta → p.creditCeiling < a.balance + (x - paid) → refused .ceiling) ∧
      (0 < delta → a.balance + (x - paid) ≤ p.creditCeiling →
        applied (tested { a with balance := a.balance + (x - paid), arrears := owed - paid }) (x - paid) 0 paid []) ∧
      (delta ≤ 0 → applied (tested { a with balance := a.balance - removed, arrears := owed }) 0 removed 0
        (if removed < x then [⟨f.tag, f.slot, .notice (.adjustClamped x removed)⟩] else [])))

/-- The voucher window accepts each number once (R19, R20): after a number is accepted, no later run of vouchers makes it accepted
again, and from an absent window a number never presented is never called DUPLICATE and never STALE within 16 of the highest. -/
def Obligations.WindowAcceptsOnce : Prop :=
  let take (w : Option Window) (n : Nat) : Option Window := if windowTest w n = .accept then some (windowAccept w n) else w
  (∀ (w : Option Window) (n : Nat) (later : List Nat), windowTest w n = .accept →
    windowTest (later.foldl take (some (windowAccept w n))) n ≠ .accept) ∧
  (∀ (seen : List Nat) (n : Nat), n ∉ seen → windowTest (seen.foldl take none) n ≠ .duplicate) ∧
  (∀ (seen : List Nat) (n : Nat), n ∉ seen → (∀ m ∈ seen, m ≤ n + 16) → windowTest (seen.foldl take none) n = .accept)

/-- No voucher loses or makes money (R34, R35): amount and carry before equal the fee, the price of every watt-hour bought and the
carry after; the carry after is at most 65,534; and the period purchase grows by the credit, saturating. The tiers and rooms are
R34's, for a plan whose ceilings are one fewer than its prices: a tier whose ceiling the period purchase has reached is passed
with nothing bought; a tier before the last sells the smaller of its room and what the money left can buy, the last tier all of
that; the walk leaves a tier exactly when its room is used up; and the money left is below the price of the tier it stopped in. -/
def Obligations.ConversionKeepsMoney : Prop :=
  ∀ (a : Account) (p : Plan) (clock : Clock) (v : VoucherPayload) (c : Conversion), a.convert p clock v = .ok c →
    let credits := c.walk.credits
    let before := if c.rolled then 0 else a.periodPurchase
    let spent (es : List Nat) := (List.zipWith (fun energy price => energy * price) es p.prices).sum
    v.amount * 1000 + a.carry = p.fee * 1000 + spent credits + c.walk.money ∧
    (p.prices ≠ [] → (∀ x ∈ p.prices, 1 ≤ x ∧ x ≤ 65535) → c.walk.money ≤ 65534) ∧
    (p.prices ≠ [] → (∀ x ∈ p.ceilings, x ≤ 16777215) → a.periodPurchase ≤ 16777215 →
      c.walk.purchase = min (before + credits.sum) 16777215) ∧
    (p.ceilings.length + 1 = p.prices.length →
      let last := p.ceilings.length
      let room (k : Nat) := p.ceilings.getD k 0 - (before + (credits.take k).sum)
      let affordable (k : Nat) :=
        (v.amount * 1000 + a.carry - p.fee * 1000 - spent (credits.take k)) / p.prices.getD k 0
      1 ≤ credits.length ∧ credits.length ≤ last + 1 ∧
      (∀ k < last, (∀ i ≤ k, p.ceilings.getD i 0 ≤ before) → k + 1 < credits.length ∧ credits.getD k 0 = 0) ∧
      (∀ k < credits.length,
        (k < last → credits.getD k 0 = min (room k) (affordable k) ∧
          (k + 1 < credits.length ↔ credits.getD k 0 = room k)) ∧
        (k = last → credits.getD k 0 = affordable k) ∧
        (k + 1 = credits.length → 1 ≤ p.prices.getD k 0 → c.walk.money < p.prices.getD k 0)))

/-! ### Grants and reconciliation (03) -/

/-- The poll request (R44, R45, R49, R50, R68): a relay payload carried 16 times is dropped with its deferred refusal; a grant is
created where every condition holds, of the smallest of the balance, the boosted dose and the kit's maximum; the instruction set
is what the record then holds, and a carried payload's count rises. For an EMPTY account or another kit id the set is empty. -/
def Obligations.PollRequestCreatesGrant : Prop :=
  ∀ (s : State) (slot kitId : Nat),
    (s.account slot = none → s.pollRequest slot kitId = (s, {})) ∧
    ∀ a, s.account slot = some a →
      (a.kitId ≠ kitId → s.pollRequest slot kitId = (s, {})) ∧
      ∀ p fig, a.kitId = kitId → s.plan a.plan = some p → (s.link slot).figures = some fig →
        let relay := a.relay.filter fun r => decide (r.polled < 16)
        let expired : List Report := match a.relay with
          | some r => if 16 ≤ r.polled then [deferredRefusal slot r.tag .relayExpired] else []
          | none => []
        let mayGrant := a.state = .active ∧ (s.link slot).state = .bound ∧ s.fp.effective = .run ∧ a.pendingGrant = none ∧
          a.withdrawn = none ∧ a.allowance < p.lowWater ∧ 0 < a.balance
        let misses := ((s.link slot).history.filter fun o => o == .miss).length
        let g := min (min a.balance (p.dose * (1 + min (misses / 2) p.boostLimit))) fig.maxGrant
        let q := (a.q + 1) % 256
        let carried (grant : Option Grant) : InstructionSet := ⟨grant, a.revokeDue, a.lockNoticeDue, relay⟩
        let counted := relay.map fun r => { r with polled := r.polled + 1 }
        (mayGrant → s.pollRequest slot kitId =
          ((s.handAll expired).setAccount slot (some { a with
            balance := a.balance - g, q := q, pendingGrant := some ⟨q, g, false⟩, relay := counted }),
           carried (some ⟨q, g⟩))) ∧
        (¬ mayGrant → s.pollRequest slot kitId =
          ((s.handAll expired).setAccount slot (some { a with relay := counted }),
           carried (a.pendingGrant.map fun g => ⟨g.seq, g.amount⟩)))

/-- A reconciliation neither loses nor makes energy (R54 to R62): where it finds no fault and clamps nothing, the balance, the
allowance and a pending grant less the arrears fall by exactly the usage on the meter and the drift that a NOTICE reports. The
premise on the allowance keeps the sum of a grant within its range (log entry 19). -/
def Obligations.ReconciliationKeepsEnergy : Prop :=
  ∀ (a b : Account) (p : Plan) (slot : Nat) (rep : KitReport) (carried : InstructionSet) (rs : List Report),
    a.reconcile p slot rep carried = (b, rs) →
    (∀ g, a.pendingGrant = some g → a.allowance + g.amount ≤ 16777215) →
    (∀ w, a.withdrawn = some w → a.allowance + w.amount ≤ 16777215) →
    (∀ r ∈ rs, ∀ x k c l B G R q, r.body ≠ .notice (.balanceClamped x) ∧ r.body ≠ .notice (.arrearsClamped x) ∧
      r.body ≠ .notice (.cause c) ∧ r.body ≠ .quarantine k c l B G R q) →
    let energy (x : Account) : Int :=
      (x.balance : Int) + x.allowance + (x.pendingGrant.map PendingGrant.amount).getD 0 - x.arrears
    let usage := match a.baseline with
      | some u => if a.rebaseDue then 0 else meterDistance rep.meter u
      | none => 0
    ∃ drift : Nat, energy a = energy b + usage + drift ∧ b.baseline = some rep.meter ∧ b.allowance = rep.remaining ∧
      (0 < drift → ⟨0, slot, .notice (.allowanceDrift drift)⟩ ∈ rs)

/-- A reconciliation runs its stages (R54 to R63), `r1` to `r4` being what the stages 1 to 4 leave. Stage 1 settles the pending or
the withdrawn grant by the applied sequence, and any other sequence is GRANT_SEQ, which skips stages 2 to 4. Stage 2 adopts the
meter, or charges the usage to allowance, balance and arrears with its NOTICEs; a meter gone backwards is REGRESS, which skips 3
and 4; arrears above the plan's limit are ARREARS_LIMIT. Stage 3 returns a discarded amount, and one above G is OVERCLAIM, which
skips 4. Stage 4 compares the remaining allowance (below), and one above G is OVERCLAIM. Stage 5 latches events, clears a carried
lock notice and ends a carried relay payload. Stage 6 enters QUARANTINED with the first cause, cancels a pending grant (R7) and
sets both flags, keeps the cause of an account QUARANTINED before, or tests for credit (R6). The records stand in R63's order,
under tag 0 (the model's choice, log entry 22); the sum of G and a grant above 16,777,215 is a free value within the range (log
entry 19). The last clauses say of stage 4 alone (R60) that an equal k changes nothing, one below G becomes G with a NOTICE
ALLOWANCE_DRIFT, not returned to B, and one above G is the fault; and that a kit that reports a withdrawn grant applied, and holds
no more than the two amounts less its usage and what it discarded, is not found to claim too much. -/
def Obligations.ReconciliationRunsItsStages : Prop :=
  (∀ (a : Account) (p : Plan) (slot : Nat) (rep : KitReport) (carried : InstructionSet),
    let before := (a.q + 255) % 256
    let isSum (G amount : Nat) := G ≤ 16777215 ∧ (a.allowance + amount ≤ 16777215 → G = a.allowance + amount)
    let unbooked (arrears x : Nat) : List NoticeBody :=
      if 65535 < arrears + x then [.arrearsClamped (arrears + x - 65535)] else []
    let clamped (sum : Nat) : List NoticeBody := if 16777215 < sum then [.balanceClamped (sum - 16777215)] else []
    ∃ r1 r2 r3 r4 : Recon,
      (∀ g, a.pendingGrant = some g →
        (rep.applied = a.q → ∃ G, isSum G g.amount ∧ r1 = { acct := { a with allowance := G, pendingGrant := none } }) ∧
        (rep.applied = before → r1 = { acct := a })) ∧
      (∀ w, a.pendingGrant = none → a.withdrawn = some w →
        (rep.applied = a.q →
          let taken := min w.amount a.balance
          ∃ G, isSum G w.amount ∧ r1 =
            { acct := { a with
                allowance := G, balance := a.balance - taken, arrears := min (a.arrears + (w.amount - taken)) 65535
                withdrawn := none }
              notices := unbooked a.arrears (w.amount - taken) }) ∧
        (rep.applied = before → r1 = { acct := { a with withdrawn := none, q := rep.applied } })) ∧
      (a.pendingGrant = none → a.withdrawn = none → rep.applied = a.q → r1 = { acct := a }) ∧
      (rep.applied ≠ a.q → rep.applied ≠ before ∨ a.pendingGrant = none ∧ a.withdrawn = none →
        r1 = { acct := a, faults := [.grantSeq] }) ∧
      (r1.faults ≠ [] → r4 = r1) ∧
      (r1.faults = [] →
        let x := r1.acct
        let booked (y : Account) (notices : List NoticeBody) : Recon :=
          { acct := y, notices := r1.notices ++ notices, faults := if p.arrearsLimit < y.arrears then [.arrearsLimit] else [] }
        (x.baseline = none ∨ x.rebaseDue = true →
          r2 = booked { x with baseline := some rep.meter, rebaseDue := false } []) ∧
        (∀ u, x.baseline = some u → x.rebaseDue = false →
          let d := (rep.meter + 16777216 - u % 16777216) % 16777216
          (8388608 < d → r2 = { r1 with faults := [.regress] } ∧ r4 = r2) ∧
          (d ≤ 8388608 →
            let used := min d x.allowance
            let taken := min (d - used) x.balance
            r2 = booked
              { x with
                allowance := x.allowance - used, balance := x.balance - taken
                arrears := min (x.arrears + (d - used - taken)) 65535, baseline := some rep.meter }
              ((if p.usageStep < d then [.usageJump d p.usageStep] else []) ++ unbooked x.arrears (d - used - taken)))) ∧
        (Cause.regress ∉ r2.faults →
          let y := r2.acct
          (carried.revoke = false ∨ rep.revokeDone = false → r3 = r2) ∧
          (carried.revoke = true → rep.revokeDone = true →
            (rep.discarded ≤ y.allowance →
              let pay := min rep.discarded y.arrears
              let sum := y.balance + (rep.discarded - pay)
              r3 = { r2 with
                acct := { y with
                  allowance := y.allowance - rep.discarded, arrears := y.arrears - pay, balance := min sum 16777215
                  revokeDue := false }
                notices := r2.notices ++ clamped sum }) ∧
            (y.allowance < rep.discarded → r3 = { r2 with faults := r2.faults ++ [.overclaim] } ∧ r4 = r3)) ∧
          (Cause.overclaim ∉ r3.faults →
            let z := r3.acct
            (rep.remaining = z.allowance → r4 = r3) ∧
            (rep.remaining < z.allowance → r4 = { r3 with
              acct := { z with allowance := rep.remaining }
              notices := r3.notices ++ [.allowanceDrift (z.allowance - rep.remaining)] }) ∧
            (z.allowance < rep.remaining → r4 = { r3 with faults := r3.faults ++ [.overclaim] })))) ∧
      (let e := rep.events
       let old := r4.acct.latch
       let done : Option Nat := match carried.relay, r4.acct.relay with
         | some c, some h => if c.tag = h.tag then some h.tag else none
         | _, _ => none
       let b : Account := { r4.acct with
         latch := ⟨old.tamper || e.tamper, old.panelFault || e.panelFault, old.batteryLow || e.batteryLow,
           old.overload || e.overload⟩
         lockNoticeDue := r4.acct.lockNoticeDue && !carried.lockNotice
         relay := if done.isSome then none else r4.acct.relay }
       let events : List Report := ([(.tamper, e.tamper && !old.tamper), (.panelFault, e.panelFault && !old.panelFault),
         (.batteryLow, e.batteryLow && !old.batteryLow), (.overload, e.overload && !old.overload)] :
           List (KitEvent × Bool)).filterMap fun k => if k.2 then some ⟨0, slot, .kitEvent b.kitId k.1⟩ else none
       let outcome (c : Account) (first : List Report) (notices : List NoticeBody) := a.reconcile p slot rep carried =
         (c, first ++ notices.map (fun n => ⟨0, slot, .notice n⟩) ++ events ++
           (match done with
             | some tag => [⟨tag, slot, .relayDone⟩]
             | none => []))
       let credit := 0 < b.balance ∨ 0 < b.allowance ∨ b.pendingGrant.isSome ∨ b.withdrawn.isSome
       (r4.faults = [] →
         (b.state = .active → ¬ credit → outcome { b with state := .locked, lockNoticeDue := true } [] r4.notices) ∧
         (b.state = .locked → 0 < b.balance → outcome { b with state := .active, lockNoticeDue := false } [] r4.notices) ∧
         (¬ (b.state = .active ∧ ¬ credit) → ¬ (b.state = .locked ∧ 0 < b.balance) → outcome b [] r4.notices)) ∧
       (∀ c further, r4.faults = c :: further →
         (b.state = .quarantined → outcome b [] (r4.notices ++ (c :: further).map .cause)) ∧
         (b.state ≠ .quarantined →
           let held : Account := { b with state := .quarantined, cause := some c, revokeDue := true, lockNoticeDue := true }
           let entered (h : Account) (notices : List NoticeBody) := outcome h
             [⟨0, slot, .quarantine h.kitId c b.state h.balance h.allowance h.arrears h.q⟩]
             (r4.notices ++ notices ++ further.map .cause)
           (b.pendingGrant = none → entered held []) ∧
           (∀ g, b.pendingGrant = some g →
             let pay := min g.amount b.arrears
             let sum := b.balance + (g.amount - pay)
             entered { held with
               pendingGrant := none, balance := min sum 16777215, arrears := b.arrears - pay
               withdrawn := if g.sent then some ⟨g.seq, g.amount⟩ else b.withdrawn
               q := if g.sent then b.q else (b.q + 255) % 256 } (clamped sum)))))) ∧
  (∀ (r : Recon) (k slot : Nat),
    (k = r.acct.allowance → r.stage4 k = r) ∧
    (k < r.acct.allowance → ∃ t, r.stage4 k = t ∧ t.acct = { r.acct with allowance := k } ∧ t.faults = r.faults ∧
      noticeRecords 0 slot t.notices =
        noticeRecords 0 slot r.notices ++ [⟨0, slot, .notice (.allowanceDrift (r.acct.allowance - k))⟩]) ∧
    (r.acct.allowance < k → r.stage4 k = { r with faults := r.faults ++ [.overclaim] }) ∧
    (∀ (a : Account) (w : Grant) (p : Plan) (rep : KitReport) (carried : InstructionSet), a.pendingGrant = none →
      a.withdrawn = some w → rep.applied = a.q → a.allowance + w.amount ≤ 16777215 →
      let usage := match a.baseline with
        | some u => if a.rebaseDue then 0 else meterDistance rep.meter u
        | none => 0
      let discarded := if carried.revoke && rep.revokeDone then rep.discarded else 0
      discarded ≤ a.allowance + w.amount - usage → rep.remaining ≤ a.allowance + w.amount - usage - discarded →
      Cause.overclaim ∉ (({ acct := a } : Recon).figures p rep carried).faults))

/-! ### The Report Unit (10) -/

/-- Admission and loss (R167 to R170, R173): an essential record needs one free entry and an advisory nine; a QUARANTINE goes to
the queue, else to an empty holder, else is lost and escalates the node; a loss raises its tally and REPORT_LOSS, whose own ALARM
record is judged on the same free count. A lost QUARANTINE raises the OTHER tally, and each ALARM record of the causes it newly
raises is lost with it and raises ADVISORY. -/
def Obligations.ReportsAdmittedByClass : Prop :=
  ∀ (s : State) (r : Report),
    let queued := { s with ru := { s.ru with queue := s.ru.queue ++ [r] } }
    let fill := s.ru.queue.length
    (r.body.reportClass = .essential → fill ≤ 63 → s.hand r = queued) ∧
    (r.body.reportClass = .advisory → fill ≤ 55 → s.hand r = queued) ∧
    (r.body.reportClass = .essential ∧ 64 ≤ fill ∨ r.body.reportClass = .advisory ∧ 56 ≤ fill →
      ∃ t, s.hand r = t ∧ t.ru.holder = s.ru.holder ∧ t.ru.escalated = s.ru.escalated ∧
        t.ru.alarms = s.ru.alarms ||| 0x100#9 ∧
        t.ru.queue = s.ru.queue ∧
        (s.ru.alarms.getLsbD 8 = true ∨ s.ru.mask.getLsbD 8 = false → t.ru.tallies = s.ru.tallies.bump r.body.group) ∧
        (s.ru.alarms.getLsbD 8 = false → s.ru.mask.getLsbD 8 = true →
          t.ru.tallies = (s.ru.tallies.bump r.body.group).bump .advisory)) ∧
    (r.body.reportClass = .quarantine →
      (fill ≤ 63 → s.hand r = queued.raise .quarantine) ∧
      (64 ≤ fill → s.ru.holder = none →
        s.hand r = ({ s with ru := { s.ru with holder := some r } } : State).raise .quarantine) ∧
      (64 ≤ fill → ∀ q, s.ru.holder = some q → ∃ t, s.hand r = t ∧ t.ru.queue = s.ru.queue ∧ t.ru.holder = some q ∧
        t.ru.escalated = true ∧ t.ru.alarms = s.ru.alarms ||| 0b110001000#9 ∧
        t.ru.tallies.other = min (s.ru.tallies.other + 1) 255 ∧
        t.ru.tallies = ([3, 7, 8].filter fun i => !s.ru.alarms.getLsbD i && s.ru.mask.getLsbD i).foldl
          (fun tallies _ => tallies.bump .advisory) (s.ru.tallies.bump .other)))

/-! ### The field timer and the beacon (06) -/

/-- The field timer (R102, R103, R105, R118): CYCLE_START advances the cycle number, adopts a shadow, takes the configured
identity and evaluates the mode; each SLOT_START moves to the next slot with the mode evaluated, keys the dominance word in a
beacon slot or makes the cycle UNCLAIMED under QUIET, and leaves a data slot unused in a cycle not CLAIMED or under QUIET; a slot
of a CLAIMED cycle that starts under QUIET ends the keying of that cycle (R120); GAP_START begins the gap. The two steps of a
beacon slot's start and the cycle start that ends data slot 23 are the model's choice (log entries 9 and 10), as is that no slot
ends while the node keys (log entry 13). -/
def Obligations.FieldTimerRunsCycle : Prop :=
  ∀ (s : State) (cut : List Block), s.powered = true → s.fp.busy = false → s.fp.reception = none → s.fp.window = .closed →
    let evaluated (id : Nat) : Mode :=
      if id = 0 then .quiet else if s.ru.escalated = true ∧ s.ret.requested = .run then .drain else s.ret.requested
    let count := s.ret.active.contentionCount
    let mode := evaluated s.fp.idInEffect
    let at_ (p : Place) : State := { s with fp := { s.fp with
      place := p, effective := mode, downlink := .silent, window := .closed, recordMade := false
      quieted := s.fp.quieted || (s.fp.status == .claimed && mode == .quiet) } }
    (s.fp.place = .started ∨ s.fp.place = .gap ∨ s.fp.place = .data 23 ∧ s.ret.active.gap = 0 →
      ∃ t, exec (.cycleStart cut) s = .next t ∧ t.tp = s.tp ∧ t.counters = s.counters ∧
        t.ret = { s.ret with active := s.fp.shadow.getD s.ret.active, calendar := t.ret.calendar, links := t.ret.links } ∧
        t.fp = { s.fp with
          shadow := none, cycle := (s.fp.cycle + 1) % 65536, cycleDay := if s.ret.clock.isSet then s.ret.clock.day else 0
          status := .pending, callsOpen := false, quieted := false, place := .cycleBegun, idInEffect := s.ret.nodeId
          rankInEffect := s.ret.rank, effective := evaluated s.ret.nodeId, downlink := .silent, window := .closed
          recordMade := false }) ∧
    (s.fp.place = .cycleBegun → mode = .quiet →
      exec (.slotStart cut) s = .next { at_ .beacon with fp := { (at_ .beacon).fp with status := .unclaimed } }) ∧
    (s.fp.place = .cycleBegun → mode ≠ .quiet →
      exec (.slotStart cut) s = .next { at_ .beacon with fp := { (at_ .beacon).fp with
        downlink := .dominance (BitVec.ofNat 24 (s.fp.rankInEffect * 65536 + s.fp.idInEffect)) } }) ∧
    (s.fp.place = .beacon → 0 < count → exec (.slotStart cut) s = .next (at_ (.contention 0))) ∧
    (∀ n, s.fp.place = .contention n → n + 1 < count → exec (.slotStart cut) s = .next (at_ (.contention (n + 1)))) ∧
    (s.fp.status ≠ .claimed ∨ mode = .quiet →
      (∀ n, s.fp.place = .contention n → count ≤ n + 1 → exec (.slotStart cut) s = .next (at_ (.data 0))) ∧
      (∀ n, s.fp.place = .data n → n < 23 → exec (.slotStart cut) s = .next (at_ (.data (n + 1))))) ∧
    (s.fp.place = .data 23 → s.ret.active.gap ≠ 0 →
      exec (.gapStart cut) s = .next { s with fp := { s.fp with
        place := .gap, downlink := .silent, window := .closed, recordMade := false } })

/-- The Link Controller at a cycle start (R133, R149 to R151), after a start, after the gap, or at the end of data slot 23 with a
gap of 0 (log entry 10): an entry DECLINING with age 1 leaves the queue, one with age 0 is aged; a bring-up at its limit fails
with cause TIMEOUT, its link in BRINGUP becomes ABSENT, and a DECLINE is owed; every other entry only loses its exchange mark. The
claim is about an entry alone in its slot, as R135 has it. Ages are tested before timers (log entry 29). -/
def Obligations.CycleStartTimesBringups : Prop :=
  ∀ (s : State) (cut : List Block) (c : Caller), s.powered = true → s.fp.busy = false → s.fp.reception = none →
    s.fp.window = .closed →
    s.fp.place = .started ∨ s.fp.place = .gap ∨ s.fp.place = .data 23 ∧ s.ret.active.gap = 0 →
    s.lc.callers.filter (fun d => d.slot == c.slot) = [c] →
    let v := s.linkVol c.slot
    let l := s.link c.slot
    let elapsed (start : Nat) := ((s.fp.cycle + 1) % 65536 + 65536 - start) % 65536
    ∃ t, exec (.cycleStart cut) s = .next t ∧
      (v.progress = some .declining → 1 ≤ v.declineAge →
        t.caller c.slot = none ∧ (t.linkVol c.slot).progress = none) ∧
      (v.progress = some .declining → v.declineAge = 0 →
        t.caller c.slot = some { c with mark := false } ∧ t.linkVol c.slot = { v with declineAge := 1 } ∧
        t.link c.slot = l) ∧
      (∀ progress, v.progress = some progress → progress ≠ .declining →
        (∀ start, c.startCycle = some start → s.ret.config.bringupLimit ≤ elapsed start →
          t.caller c.slot = some { c with mark := false } ∧
          t.linkVol c.slot = { v with
            progress := some .declining, declineCause := some .timeout, declineAge := 0, page1 := none, page2 := none
            mismatches := 0 } ∧
          t.link c.slot = (match l.state with
            | .bringup _ => { l with state := .absent, placement := none }
            | .absent | .bound | .silent => l) ∧
          (s.lc.callers = [c] → t.ru = (State.hand { s with fp := t.fp }
            ⟨0, c.slot, .link (l.kitId.getD 0) (.bringupFailed .timeout progress v.mismatches)⟩).ru)) ∧
        ((∀ start, c.startCycle = some start → elapsed start < s.ret.config.bringupLimit) →
          t.caller c.slot = some { c with mark := false } ∧ t.linkVol c.slot = v ∧ t.link c.slot = l))

/-- Beacon arbitration (R107 to R110): BEACON_WON claims the cycle and keys the beacon, with calls open under RUN alone;
BEACON_YIELD on a recessive bit stands down for the cycle and is counted, on a dominant bit it has no effect. Either outcome
enters the yield history of at most 16, and a count at the limit raises YIELD_LIMIT. -/
def Obligations.BeaconArbitration : Prop :=
  ∀ (s : State) (word : BitVec 24), s.fp.downlink = .dominance word →
    let history (o : YieldOutcome) := (s.fp.history ++ [o]).drop (s.fp.history.length + 1 - 16)
    let tested (t : State) : State :=
      if s.ret.config.yieldLimit ≤ (t.fp.history.filter fun o => o == .yielded).length then t.raise .yieldLimit else t
    let f : DownFrame :=
      { kind := .beacon, address := 0, reportTaken := false, planted := none
        payload := put 2 s.fp.idInEffect ++ put 2 s.fp.cycle ++ put 2 s.fp.cycleDay ++ put 1 s.ret.active.contentionCount ++
          [if s.fp.effective = .run then 1 else 0] }
    exec .beaconWon s = .next (tested { s with fp := { s.fp with
      status := .claimed, callsOpen := s.fp.effective == .run, downlink := .keying f (f.air s.fp.idInEffect s.fp.cycle)
      history := history .won } }) ∧
    ∀ bit < 24,
      (word.getLsbD (23 - bit) = true → exec (.beaconYield bit) s = .next (tested { s with
        fp := { s.fp with status := .yielded, downlink := .silent, history := history .yielded }
        counters := { s.counters with yieldedCycles := min (s.counters.yieldedCycles + 1) 65535 } })) ∧
      (word.getLsbD (23 - bit) = false → exec (.beaconYield bit) s = .next s)

/-! ### Data slots (03, 07, 08, 09) -/

/-- A data slot on the cell of a kit (R126, R127, R132, R161): a BOUND or SILENT kit with a held probe gets its PROBE with no poll
request; without one, and at CONFIRMED, the poll request is made and the POLL carries its set, kept as the carried set. In a cycle
quieted before, the frame is not keyed and begins no exchange (R112, R120; the model's choice, log entry 38). -/
def Obligations.WakeSlotHandsPollOrProbe : Prop :=
  ∀ (s : State) (cut : List Block) (n slot : Nat), s.powered = true → s.fp.busy = false → s.fp.reception = none →
    s.fp.window = .closed → s.fp.place.nextSlot s.ret.active.contentionCount = some (.data n) → s.fp.status = .claimed →
    let mode := effectiveMode s.fp.idInEffect s.ru.escalated s.ret.requested
    mode ≠ .quiet → s.cell (s.fp.cycle % 64) n = some slot →
    let l := s.link slot
    let v := s.linkVol slot
    let kitId := l.kitId.getD 0
    let fp := { s.fp with place := .data n, effective := mode, window := .closed, recordMade := false, downlink := .silent }
    let handed (t : State) (f : DownFrame) (k : ExchangeKind) :=
      (s.fp.quieted = false → exec (.slotStart cut) s = .next
        { t with fp := { fp with downlink := .handed f }, lc := { t.lc with exchange := some ⟨k, slot, kitId⟩ } }) ∧
      (s.fp.quieted = true → exec (.slotStart cut) s = .next { t with fp := fp })
    let wakes := l.state = .bound ∨ l.state = .silent
    (∀ p, wakes → v.probe = some p →
      handed s ⟨.probe, slot, false, probePattern p.seed, some (p.seed, p.forced)⟩ (.probe (some p))) ∧
    (wakes ∧ v.probe = none ∨ l.state = .bringup .confirmed →
      ∀ t i, State.pollRequest { s with fp := fp } slot kitId = (t, i) →
        handed t ⟨.poll, slot, v.reportTaken, pollPayload i, none⟩ (.poll i))

/-- A free cell serves the first entry without an exchange mark and not at CONFIRMED (R126, R133, R140, R151): INVITE for page 1
or page 2 by the entry's progress and pages, the first INVITE of an ABSENT link beginning its BRINGUP; DECLINE for a DECLINING
entry, which then leaves the queue; with no such entry nothing is keyed. A cell that holds a kit at OFFERED is free. In a cycle
quieted before, the frame is not keyed and begins no exchange (R112, R120; the model's choice, log entry 38). The OFFER is
FreeCellOffersPlacement's. -/
def Obligations.FreeCellServesCaller : Prop :=
  ∀ (s : State) (cut : List Block) (n : Nat), s.powered = true → s.fp.busy = false → s.fp.reception = none →
    s.fp.window = .closed → s.fp.place.nextSlot s.ret.active.contentionCount = some (.data n) → s.fp.status = .claimed →
    let mode := effectiveMode s.fp.idInEffect s.ru.escalated s.ret.requested
    mode ≠ .quiet →
    s.cell (s.fp.cycle % 64) n = none ∨
      (∃ k, s.cell (s.fp.cycle % 64) n = some k ∧ (s.link k).state = .bringup .offered) →
    let fp := { s.fp with place := .data n, effective := mode, window := .closed, recordMade := false, downlink := .silent }
    let next := s.lc.callers.find? fun c => !c.mark && (s.linkVol c.slot).progress != some .confirmed
    (next = none → exec (.slotStart cut) s = .next { s with fp := fp }) ∧
    ∀ c, next = some c →
      let v := s.linkVol c.slot
      let served (start : Option Nat) := s.lc.callers.map fun d =>
        if d.slot = c.slot then { d with startCycle := start.orElse fun _ => d.startCycle, mark := true } else d
      let handed (f : DownFrame) (k : ExchangeKind) (t : State) :=
        t.fp = { fp with downlink := if s.fp.quieted then .silent else .handed f } ∧
        t.lc.exchange = if s.fp.quieted then s.lc.exchange else some ⟨k, c.slot, c.kitId⟩
      let invited (page : Nat) (t : State) :=
        handed ⟨.invite, 0, false, put 4 c.kitId ++ put 1 page, none⟩ (.invite page) t ∧ t.ru = s.ru ∧ t.ret.accounts = s.ret.accounts
      (1 ≤ c.slot → c.slot ≤ 384 → v.progress = some .waiting → c.startCycle = none →
        ∃ t, exec (.slotStart cut) s = .next t ∧ invited 1 t ∧ t.lc.callers = served (some s.fp.cycle) ∧
          t.linkVol c.slot = { v with progress := some .invited } ∧
          t.link c.slot = if (s.link c.slot).state = .absent
            then { s.link c.slot with state := .bringup .invited } else s.link c.slot) ∧
      (∀ start, c.startCycle = some start →
        (v.progress = some .invited ∨ v.progress = some .offered → v.page1 = none →
          ∃ t, exec (.slotStart cut) s = .next t ∧ invited 1 t ∧ t.lc.callers = served none ∧ t.lc.links = s.lc.links ∧
            t.ret = s.ret) ∧
        (v.progress = some .page2 → v.page2 = none →
          ∃ t, exec (.slotStart cut) s = .next t ∧ invited 2 t ∧ t.lc.callers = served none ∧ t.lc.links = s.lc.links ∧
            t.ret = s.ret)) ∧
      (v.progress = some .declining → ∃ t, exec (.slotStart cut) s = .next t ∧
        handed ⟨.decline, 0, false, put 4 c.kitId ++ put 1 (v.declineCause.getD .timeout).code, none⟩ .decline t ∧
        t.caller c.slot = none ∧ (t.linkVol c.slot).progress = none)

/-- The OFFER (R123, R140, R144, R160): an entry at INVITED with page 1 held, at PAGE2 with both pages, or at OFFERED gives up its
former placement; the first free placement from its start exponent is taken, its cells name the kit, the link enters BRINGUP at
OFFERED, a probe held by a renewing link ends NO_ECHO, and the OFFER is handed over with the placement, the node id and the plan's
dose. With none free the bring-up fails CALENDAR_FULL: its DECLINE is handed over, the advisory made, the link left ABSENT and the
entry gone. That a probe held over CALENDAR_FULL stays held, at the OFFER of a later first bring-up too, is the model's choice
(log entry 27), as are a dropped probe's free cycle number outside a wake (log entry 21), the advisory's tag 0 (log entry 22) and
the frame not keyed in a cycle quieted before (log entry 38). -/
def Obligations.FreeCellOffersPlacement : Prop :=
  ∀ (s : State) (cut : List Block) (n : Nat) (c : Caller) (p1 : Page1) (a : Account) (plan : Plan), s.powered = true →
    s.fp.busy = false → s.fp.reception = none → s.fp.window = .closed →
    s.fp.place.nextSlot s.ret.active.contentionCount = some (.data n) → s.fp.status = .claimed →
    let mode := effectiveMode s.fp.idInEffect s.ru.escalated s.ret.requested
    mode ≠ .quiet →
    s.cell (s.fp.cycle % 64) n = none ∨
      (∃ k, s.cell (s.fp.cycle % 64) n = some k ∧ (s.link k).state = .bringup .offered) →
    s.lc.callers.find? (fun c => !c.mark && (s.linkVol c.slot).progress != some .confirmed) = some c →
    1 ≤ c.slot → c.slot ≤ 384 →
    let l := s.link c.slot
    let v := s.linkVol c.slot
    v.page1 = some p1 →
    v.progress = some .invited ∨ v.progress = some .offered ∨ (v.progress = some .page2 ∧ v.page2.isSome) →
    s.account c.slot = some a → s.plan a.plan = some plan →
    let fp := { s.fp with place := .data n, effective := mode, window := .closed, recordMade := false, downlink := .silent }
    let preferred := match v.page2 with
      | some p2 => p2.preferred
      | none => s.ret.config.defaultExponent
    let start := min (max p1.figures.minExponent preferred) p1.figures.maxExponent
    let released := s.release c.slot
    let served := s.lc.callers.map fun d => if d.slot = c.slot then { d with mark := true } else d
    let handed (f : DownFrame) (t : State) := t.fp = { fp with downlink := if s.fp.quieted then .silent else .handed f }
    let others (t : State) := t.ret.accounts = s.ret.accounts ∧ t.ret.plans = s.ret.plans ∧ t.tp = s.tp ∧
      t.counters = s.counters ∧ ∀ k, k ≠ c.slot → t.link k = s.link k ∧ t.linkVol k = s.linkVol k
    (∀ q, released.findPlacement start p1.figures.maxExponent = some q →
      let ended : List Report := match l.state, v.probe with
        | .bound, some p | .silent, some p => [⟨p.tag, c.slot, .probeResult a.kitId p .noEcho (s.droppedCycle c.slot)⟩]
        | _, _ => []
      ∃ t, exec (.slotStart cut) s = .next t ∧ others t ∧
        handed ⟨.offer, 0, false, put 4 c.kitId ++ put 2 c.slot ++ put 1 q.phase ++ put 1 q.slot ++ put 1 q.exponent ++
          put 2 s.fp.idInEffect ++ put 2 plan.dose, none⟩ t ∧
        (s.fp.quieted = false → t.lc.exchange = some ⟨.offer, c.slot, c.kitId⟩) ∧ t.lc.callers = served ∧
        t.link c.slot = { l with placement := some q, state := .bringup .offered } ∧
        t.linkVol c.slot = { v with
          progress := some .offered, probe := if l.state = .bound ∨ l.state = .silent then none else v.probe } ∧
        (∀ i ∈ q.cells, t.ret.calendar[i]? = some (some c.slot)) ∧
        (∀ i, i ∉ q.cells → t.ret.calendar[i]? = released.ret.calendar[i]?) ∧
        t.ru = (State.handAll { s with fp := fp } ended).ru) ∧
    (released.findPlacement start p1.figures.maxExponent = none →
      ∃ t, exec (.slotStart cut) s = .next t ∧ others t ∧
        handed ⟨.decline, 0, false, put 4 c.kitId ++ put 1 1, none⟩ t ∧
        (s.fp.quieted = false → t.lc.exchange = some ⟨.decline, c.slot, c.kitId⟩) ∧
        t.lc.callers = served.filter (fun d => d.slot != c.slot) ∧
        t.link c.slot = { l with placement := none, state := .absent, kitId := none } ∧
        t.linkVol c.slot = { v with
          progress := none, page1 := none, page2 := none, mismatches := 0, declineCause := none, declineAge := 0 } ∧
        t.ret.calendar = released.ret.calendar ∧
        t.ru = (State.hand { s with fp := fp } ⟨0, c.slot, .link (l.kitId.getD 0)
          (.bringupFailed .calendarFull (v.progress.getD .waiting) v.mismatches)⟩).ru)

/-- The steps of an allocation (R123): a release frees exactly the cells of the former placement and takes it from the record; the
start exponent is the larger of the kit's minimum and the preferred exponent, at most the kit's maximum; from it up to the
maximum, within an exponent by phase and within that by data slot, the first placement whose cells are all free is found, and
where the search ends without one no placement at those exponents is free; the cells of a placement taken, and no others, receive
the short address. The OFFER that makes these steps is FreeCellOffersPlacement's. -/
def Obligations.AllocationTakesFirstFree : Prop :=
  ∀ (s : State) (slot start top : Nat), 1 ≤ slot → slot ≤ 384 →
    let legal (p : Placement) := start ≤ p.exponent ∧ p.exponent ≤ top ∧ p.phase < 2 ^ p.exponent ∧ p.slot < 24
    let free (p : Placement) := ∀ row column, row < 64 → row % 2 ^ p.exponent = p.phase → column = p.slot →
      s.cell row column = none
    let earlier (p q : Placement) := p.exponent < q.exponent ∨ p.exponent = q.exponent ∧
      (p.phase < q.phase ∨ p.phase = q.phase ∧ p.slot < q.slot)
    let former (i : Nat) := ∃ p, (s.link slot).placement = some p ∧ i ∈ p.cells
    (∀ i, (former i → ((s.release slot).ret.calendar[i]?).join = none) ∧
      (¬ former i → (s.release slot).ret.calendar[i]? = s.ret.calendar[i]?)) ∧
    (s.release slot).link slot = { s.link slot with placement := none } ∧
    (∀ low high preferred, low ≤ high →
      (low ≤ preferred → preferred ≤ high → startExponent low high preferred = preferred) ∧
      (preferred < low → startExponent low high preferred = low) ∧
      (high < preferred → startExponent low high preferred = high)) ∧
    (∀ p, p.exponent ≤ 6 → p.phase < 2 ^ p.exponent → p.slot < 24 → ∀ row column, row < 64 → column < 24 →
      (s.fillCells p (some slot)).cell row column =
        if row % 2 ^ p.exponent = p.phase ∧ column = p.slot then some slot else s.cell row column) ∧
    (top ≤ 6 →
      (∀ q, s.findPlacement start top = some q → legal q ∧ free q ∧ ∀ p, legal p → earlier p q → ¬ free p) ∧
      (s.findPlacement start top = none → ∀ p, legal p → ¬ free p))

/-- KEYING_BEGUN (R46, R112): the frame's blocks go on air, and the keying notice of a POLL with a grant marks the pending grant
of that number sent, or records a grant cancelled since as withdrawn and takes q forward again (by R46's listed conditions alone,
the model's choice, log entry 31); any other case changes nothing. DOWNLINK_KEYED (R104): the last block keyed opens the reply
window, but for the beacon. -/
def Obligations.KeyingMarksGrantSent : Prop :=
  ∀ (s : State) (f : DownFrame),
    (s.fp.downlink = .handed f →
      let u : State := { s with fp := { s.fp with downlink := .keying f (f.air s.fp.idInEffect s.fp.cycle) } }
      ((∀ carried slot kitId, s.lc.exchange ≠ some ⟨.poll carried, slot, kitId⟩) → exec .keyingBegun s = .next u) ∧
      ∀ carried slot kitId, s.lc.exchange = some ⟨.poll carried, slot, kitId⟩ →
        (carried.grant = none → exec .keyingBegun s = .next u) ∧
        (s.account slot = none → exec .keyingBegun s = .next u) ∧
        ∀ a g, s.account slot = some a → carried.grant = some g →
          (a.kitId ≠ kitId → exec .keyingBegun s = .next u) ∧
          (a.kitId = kitId →
            (∀ p, a.pendingGrant = some p → p.seq = g.seq → exec .keyingBegun s =
              .next (u.setAccount slot (some { a with pendingGrant := some { p with sent := true } }))) ∧
            (a.pendingGrant = none → a.withdrawn = none → (a.q + 1) % 256 = g.seq → exec .keyingBegun s =
              .next (u.setAccount slot (some { a with withdrawn := some g, q := g.seq }))) ∧
            ((∀ p, a.pendingGrant = some p → p.seq ≠ g.seq) →
              a.pendingGrant.isSome ∨ a.withdrawn.isSome ∨ (a.q + 1) % 256 ≠ g.seq → exec .keyingBegun s = .next u))) ∧
    (∀ air, s.fp.downlink = .keying f air →
      (f.kind = .beacon → exec .downlinkKeyed s = .next { s with fp := { s.fp with downlink := .silent } }) ∧
      (f.kind ≠ .beacon → exec .downlinkKeyed s = .next
        { s with fp := { s.fp with downlink := .silent, window := .open, recordMade := false } }))

/-! ### Receptions (06) -/

/-- FIELD_HEADER_BLOCK (R108, R111, R114, R120): a header that does not decode or states more than 4 blocks is counted by its
slot; one of another node, with stale cycle bits, or of a kind out of place is foreign; any other opens a reception. A header
still arriving when its window ran out is judged alike, and the window is closed with it (the model's choice, log entry 12); where
it fails with the exchange still open, the MISS is MissingReplyIsMiss's. In a cycle not CLAIMED, under QUIET, and in a data slot
outside its window a header is ignored, as is one that began in a data slot outside its window. That every failing header of a
contention slot counts, one cut short among them, is the model's choice (log entry 36). -/
def Obligations.HeaderBlockTests : Prop :=
  ∀ (s : State) (word : BitVec 16) (block : HeaderBlock), s.powered = true →
    let heard := block.outside = false ∧ s.fp.status = .claimed ∧ s.fp.effective ≠ .quiet ∧ s.fp.downlink = .silent ∧
      s.fp.reception = none
    let contention := ∃ n, s.fp.place = .contention n
    let data := ∃ n, s.fp.place = .data n
    let late := s.fp.window = .lateHeader
    let ended := late → s.fp.recordMade = true ∨ s.lc.exchange = none
    let outcome (t : State) := exec (.fieldHeaderBlock word block) s = .next
      { t with fp := { t.fp with window := if late then .closed else s.fp.window } }
    (block.outside = true ∨ s.fp.status ≠ .claimed ∨ s.fp.effective = .quiet ∨ data ∧ s.fp.window = .closed →
      exec (.fieldHeaderBlock word block) s = .next s) ∧
    (heard → s.fp.place = .beacon ∧ s.fp.window = .closed ∨ contention ∧ s.fp.window = .closed ∨
        data ∧ (s.fp.window = .open ∨ late) →
      (decodeBlock 8 block.bytes = none → ended →
        (contention → outcome (s.bump .contentionCollisions)) ∧ (data → outcome (s.bump .headerFails)) ∧
        (s.fp.place = .beacon → outcome s)) ∧
      ∀ d, decodeBlock 8 block.bytes = some d →
        let kind := UpKind.ofCode (byteAt d.data 0)
        let count := byteAt d.data 6
        let ours := field d.data 1 2 = s.fp.idInEffect ∧ byteAt d.data 5 % 64 = s.fp.cycle % 64
        let inPlace := kind = some .call ∧ contention ∨
          (kind = some .report ∨ kind = some .ability ∨ kind = some .confirm ∨ kind = some .echo) ∧ data
        (4 < count → ended →
          (contention → outcome (s.bump .contentionCollisions)) ∧ (data → outcome (s.bump .headerFails)) ∧
          (s.fp.place = .beacon → outcome s)) ∧
        (count ≤ 4 → ¬ ours ∨ ¬ inPlace → ended → outcome (s.bump .foreignField)) ∧
        (count ≤ 4 → ours → inPlace → ∀ k, kind = some k →
          let address := byteAt d.data 3 % 2 * 256 + byteAt d.data 4
          outcome { s with fp := { s.fp with
            reception := some ⟨k, address, count, d.data.getD 7 0, d.corrected, word⟩ } }))

/-- FIELD_FRAME_END of a good reply (R115, R128, R129, R148, R164): a REPORT of the polled kit is a HIT, a SILENT link resumes
with its advisory first, the report is reconciled, and a kit at CONFIRMED is bound after it; a report of an EMPTY account or
another kit id is not taken, and the report-taken flag is clear (R47); an ECHO of the probed kit is a HIT whose result ends the
probe, and one whose probe was dropped during its slot is a HIT without a second result (R164). That the report of a kit whose
bring-up at CONFIRMED a FIELD_RESET abandoned in the same slot is judged like any other, and binds nothing, is the model's choice
(log entry 39). -/
def Obligations.GoodReplyIsHit : Prop :=
  ∀ (s : State) (blocks : List Block) (n slot kitId : Nat) (r : FieldReception) (payload : List Byte), s.fp.place = .data n →
    s.fp.reception = some r → s.fp.recordMade = false → r.blockCount ≤ blocks.length → r.address = slot →
    1 ≤ slot → slot ≤ 384 →
    let arrival := r.arrival blocks true
    arrival.payload = some payload →
    let l := s.link slot
    let v := s.linkVol slot
    let resumed : List Report := if l.state = .silent then [⟨0, slot, .link kitId (.resumed l.misses)⟩] else []
    let hit (st : LinkState) : LinkRetained :=
      { l with state := st, history := (l.history ++ [WakeOutcome.hit]).drop (l.history.length + 1 - 8), misses := 0 }
    let counted : LinkVolatile := { v with
      goodFrames := min (v.goodFrames + 1) 65535, correctedBlocks := min (v.correctedBlocks + arrival.corrected) 65535 }
    let frame (t : State) := t.fp = { s.fp with reception := none, recordMade := true } ∧ t.lc.exchange = none ∧
      t.counters = s.counters ∧ t.tp = s.tp ∧ t.ret.calendar = s.ret.calendar ∧ t.ret.plans = s.ret.plans ∧
      (∀ k, k ≠ slot → t.account k = s.account k ∧ t.link k = s.link k ∧ t.linkVol k = s.linkVol k)
    (∀ carried a p, s.lc.exchange = some ⟨.poll carried, slot, kitId⟩ → r.kind = .report → s.account slot = some a →
      a.kitId = kitId → s.plan a.plan = some p →
      let b := (a.reconcile p slot (KitReport.read payload) carried).1
      let rs := (a.reconcile p slot (KitReport.read payload) carried).2
      let overtaken := v.page1.map fun q => { q with overtaken := true }
      (l.state ≠ .bringup .confirmed → ∃ t, exec (.fieldFrameEnd blocks) s = .next t ∧ frame t ∧
        t.account slot = some b ∧ t.link slot = hit (if l.state = .silent then .bound else l.state) ∧
        t.linkVol slot = { counted with reportTaken := true, page1 := overtaken } ∧ t.lc.callers = s.lc.callers ∧
        t.ru = (s.handAll (resumed ++ rs)).ru) ∧
      (∀ c start, l.state = .bringup .confirmed → s.caller slot = some c → c.startCycle = some start →
        ∃ t, exec (.fieldFrameEnd blocks) s = .next t ∧ frame t ∧
          t.account slot = some (match b.state with
            | .loaded =>
              if 0 < b.balance ∨ 0 < b.allowance ∨ b.pendingGrant.isSome
              then { b with boundOnce := true, state := .active, lockNoticeDue := false }
              else { b with boundOnce := true, state := .locked, lockNoticeDue := true }
            | .active | .locked => { b with boundOnce := true }.creditTest
            | .suspended | .quarantined => { b with boundOnce := true }) ∧
          t.link slot = hit .bound ∧ t.linkVol slot = { counted with
            reportTaken := true, progress := none, page1 := none, page2 := none, mismatches := 0, declineCause := none
            declineAge := 0 } ∧
          t.lc.callers = s.lc.callers.filter (fun d => d.slot != slot) ∧
          t.ru = (s.handAll (rs ++ [⟨0, slot, .link kitId
            (.bound (l.placement.getD default) ((s.fp.cycle + 65536 - start) % 65536))⟩])).ru)) ∧
    (∀ carried, s.lc.exchange = some ⟨.poll carried, slot, kitId⟩ → r.kind = .report → l.state ≠ .bringup .confirmed →
      (∀ a, s.account slot = some a → a.kitId ≠ kitId) →
      ∃ t, exec (.fieldFrameEnd blocks) s = .next t ∧ frame t ∧ t.account slot = s.account slot ∧
        t.link slot = hit (if l.state = .silent then .bound else l.state) ∧
        t.linkVol slot = { counted with reportTaken := false } ∧ t.lc.callers = s.lc.callers ∧
        t.ru = (s.handAll resumed).ru) ∧
    (s.lc.exchange = some ⟨.probe none, slot, kitId⟩ → r.kind = .echo →
      ∃ t, exec (.fieldFrameEnd blocks) s = .next t ∧ frame t ∧ t.account slot = s.account slot ∧
        t.link slot = hit (if l.state = .silent then .bound else l.state) ∧ t.linkVol slot = counted ∧
        t.lc.callers = s.lc.callers ∧ t.ru = (s.handAll resumed).ru) ∧
    (∀ p, s.lc.exchange = some ⟨.probe (some p), slot, kitId⟩ → r.kind = .echo →
      ∃ t result, exec (.fieldFrameEnd blocks) s = .next t ∧ frame t ∧ t.account slot = s.account slot ∧
        t.link slot = hit (if l.state = .silent then .bound else l.state) ∧ t.linkVol slot = { counted with probe := none } ∧
        t.ru = (s.handAll (resumed ++ [⟨p.tag, slot, .probeResult kitId p result s.fp.cycle⟩])).ru ∧
        (let kit := r.flags.toNat / 2 % 8
         (payload = probePattern p.seed → kit = p.forced → result = .pass kit arrival.corrected) ∧
         (payload = probePattern p.seed → kit ≠ p.forced → result = .decodeMismatch kit arrival.corrected) ∧
         (payload.length = 32 → payload ≠ probePattern p.seed → ∃ d i, 1 ≤ d ∧ i < 32 ∧
           result = .patternMismatch kit arrival.corrected d i ∧
           payload.getD i 0 ≠ (probePattern p.seed).getD i 0 ∧
           (∀ j < i, payload.getD j 0 = (probePattern p.seed).getD j 0) ∧
           d = ((List.range 32).filter fun j => payload.getD j 0 != (probePattern p.seed).getD j 0).length)))

/-- The reply to a bring-up exchange (R141, R142, R145, R64, R147): an ABILITY page 1 or page 2 in order is held; a CONFIRM that
repeats placement and page 1 brings CONFIRMED, the figures and the confirmation delivery, reconciled for an account bound once
unless page 1 is overtaken, and adopted afresh otherwise; one that differs is a mismatch, which releases the placement, and at the
third ends the bring-up with cause CONSISTENCY. Any other reply changes nothing in the link. A second record of a window, of any
exchange (R116, R128), a reply whose entry has left the queue (R141) and a reply to a DECLINE (R151) are discarded. The advisory's
count 2 and progress at the third mismatch (log entry 26), the tag 0 of these records (log entry 22) and, of an adoption, the
order of its records, the meter test against any baseline held, an earlier adoption's among them, and its skip with rebase due
(log entry 33) are the model's choice. -/
def Obligations.BringupRepliesAreTaken : Prop :=
  ∀ (s : State) (blocks : List Block) (n : Nat) (r : FieldReception), s.fp.place = .data n → s.fp.reception = some r →
    (let fp := { s.fp with reception := none, recordMade := true }
     let counters := if blocks.length < r.blockCount
       then { s.counters with shortFrames := min (s.counters.shortFrames + 1) 65535 } else s.counters
     let discarded (lc : LinkControl) :=
       exec (.fieldFrameEnd blocks) s = .next { s with fp := fp, counters := counters, lc := lc } ∧
       exec (.carrierLossEnd blocks) s = .next { s with fp := fp, counters := counters, lc := lc }
     (s.fp.recordMade = true ∨ s.lc.exchange = none → discarded s.lc) ∧
     (∀ slot kitId, s.fp.recordMade = false →
       s.lc.exchange = some ⟨.decline, slot, kitId⟩ ∨ (s.lc.exchange = some ⟨.invite 1, slot, kitId⟩ ∨
         s.lc.exchange = some ⟨.invite 2, slot, kitId⟩ ∨ s.lc.exchange = some ⟨.offer, slot, kitId⟩) ∧ s.caller slot = none →
       discarded { s.lc with exchange := none })) ∧
    ∀ (slot kitId : Nat) (payload : List Byte) (kind : ExchangeKind) (c : Caller), s.fp.recordMade = false →
    r.blockCount ≤ blocks.length → (r.arrival blocks true).payload = some payload → s.lc.exchange = some ⟨kind, slot, kitId⟩ →
    1 ≤ slot → slot ≤ 384 → s.caller slot = some c →
    let l := s.link slot
    let v := s.linkVol slot
    let w : State := { s with
      fp := { s.fp with reception := none, recordMade := true }, lc := { s.lc with exchange := none } }
    let outcome (t : State) := exec (.fieldFrameEnd blocks) s = .next t
    let ours := c.kitId = kitId ∧ r.address = 0
    let p1 : Page1 :=
      { kitId := field payload 1 4
        figures := ⟨byteAt payload 5, byteAt payload 6, field payload 7 2, byteAt payload 9, byteAt payload 10⟩
        nextPage := (payload.getD 11 0).getLsbD 0, meter := field payload 12 3, applied := byteAt payload 15
        remaining := field payload 16 3, overtaken := false }
    let events (b : Byte) : KitEvents := ⟨b.getLsbD 7, b.getLsbD 6, b.getLsbD 5, b.getLsbD 4⟩
    let page1Ok := ours ∧ r.kind = .ability ∧ byteAt payload 0 = 1 ∧ p1.kitId = kitId ∧ 1 ≤ p1.figures.maxGrant ∧
      p1.figures.minExponent ≤ p1.figures.maxExponent ∧ p1.figures.maxExponent ≤ 6 ∧ p1.figures.meterClass ≤ 15
    let page2Ok := ours ∧ r.kind = .ability ∧ byteAt payload 0 = 2 ∧ field payload 1 4 = kitId ∧ byteAt payload 6 ≤ 6
    (kind = .invite 1 →
      (page1Ok → p1.nextPage = false → outcome (w.setLinkVol slot { v with page1 := some p1 })) ∧
      (page1Ok → p1.nextPage = true → outcome ((w.setLinkVol slot { v with page1 := some p1, progress := some .page2 }).setLink
        slot (if l.state = .bringup .invited then { l with state := .bringup .page2 } else l))) ∧
      (¬ page1Ok → outcome w)) ∧
    (kind = .invite 2 →
      (page2Ok → outcome (w.setLinkVol slot { v with page2 := some ⟨events (payload.getD 5 0), byteAt payload 6⟩ })) ∧
      (¬ page2Ok → outcome w)) ∧
    (kind = .offer →
      (¬ ours ∨ r.kind ≠ .confirm → outcome w) ∧
      ∀ held, ours → r.kind = .confirm → v.page1 = some held →
        let equal := field payload 0 4 = held.kitId ∧ field payload 4 2 = slot ∧
          l.placement = some ⟨byteAt payload 6, byteAt payload 7, byteAt payload 8⟩ ∧
          held.figures = ⟨byteAt payload 9, byteAt payload 10, field payload 11 2, byteAt payload 13, byteAt payload 14⟩ ∧
          held.nextPage = (payload.getD 15 0).getLsbD 0 ∧ field payload 16 3 = held.meter ∧
          byteAt payload 19 = held.applied ∧ field payload 20 3 = held.remaining
        (equal → ∀ a plan, s.account slot = some a → a.kitId = held.kitId → s.plan a.plan = some plan →
          let x := (w.setLinkVol slot { v with progress := some .confirmed, reportTaken := false }).setLink slot
            { l with state := .bringup .confirmed, figures := some held.figures }
          let shown : KitEvents := match v.page2 with
            | some p2 => p2.events
            | none => ⟨false, false, false, false⟩
          let rep : KitReport := ⟨held.applied, held.meter, held.remaining, false, 0, shown⟩
          (a.boundOnce = true → held.overtaken = true → outcome x) ∧
          (a.boundOnce = true → held.overtaken = false → outcome
            ((x.setAccount slot (some (a.reconcile plan slot rep ⟨none, false, false, none⟩).1)).handAll
              (a.reconcile plan slot rep ⟨none, false, false, none⟩).2)) ∧
          (a.boundOnce = false → a.pendingGrant = none →
            let latch := a.latch
            let fresh := ([(.tamper, shown.tamper && !latch.tamper), (.panelFault, shown.panelFault && !latch.panelFault),
              (.batteryLow, shown.batteryLow && !latch.batteryLow), (.overload, shown.overload && !latch.overload)] :
                List (KitEvent × Bool)).filterMap fun k => if k.2 then some (⟨0, slot, .kitEvent a.kitId k.1⟩ : Report) else none
            let b : Account := { a with
              q := held.applied, allowance := held.remaining
              latch := ⟨latch.tamper || shown.tamper, latch.panelFault || shown.panelFault,
                latch.batteryLow || shown.batteryLow, latch.overload || shown.overload⟩ }
            let regress := ∃ u, a.baseline = some u ∧ a.rebaseDue = false ∧ 8388608 < meterDistance held.meter u
            (¬ regress → outcome
              ((x.setAccount slot (some { b with baseline := some held.meter, rebaseDue := false })).handAll fresh)) ∧
            (regress → a.state ≠ .quarantined → outcome
              ((x.setAccount slot (some { b with
                state := .quarantined, cause := some .regress, revokeDue := true, lockNoticeDue := true })).handAll
                (fresh ++ [⟨0, slot, .quarantine a.kitId .regress a.state a.balance held.remaining a.arrears held.applied⟩]))) ∧
            (regress → a.state = .quarantined → outcome
              ((x.setAccount slot (some b)).handAll (fresh ++ [⟨0, slot, .notice (.cause .regress)⟩]))))) ∧
        (¬ equal → v.mismatches < 2 → outcome (((w.release slot).setLink slot
          { l with placement := none, state := .bringup .invited }).setLinkVol slot { v with
            progress := some .invited, page1 := none, page2 := none, mismatches := v.mismatches + 1 })) ∧
        (¬ equal → 2 ≤ v.mismatches → ∃ t, outcome t ∧
          t.ret = { (w.release slot).ret with links := t.ret.links } ∧
          t.link slot = { l with placement := none, state := .absent } ∧
          t.linkVol slot = { v with
            progress := some .declining, declineCause := some .consistency, declineAge := 0, page1 := none, page2 := none
            mismatches := 0 } ∧
          (∀ k, k ≠ slot → t.link k = s.link k ∧ t.linkVol k = s.linkVol k) ∧ t.lc.callers = s.lc.callers ∧ t.fp = w.fp ∧
          t.ru = (w.hand ⟨0, slot, .link (l.kitId.getD 0)
            (.bringupFailed .consistency (v.progress.getD .waiting) v.mismatches)⟩).ru))

/-- A wake without a good reply is a MISS (R104, R115, R116, R128, R130, R164): by REPLY_WINDOW_CLOSE with no record made and no
frame arriving, by a frame that ends short, which is counted, or with a failed payload, each counted as failed against the kit it
came from, by a record of another kind or address, and by a slot's end that cuts off a frame or an open window: SLOT_START and
CYCLE_START then go on as from the state after the miss, and GAP_START begins the gap. An exchange of a bring-up is lost without
effect (R141). The history, the misses and MISSED_WAKES move; a BOUND link at the limit falls SILENT; a held probe ends NO_ECHO
after that, and one dropped during the slot makes no second result (R164). A window that closes on a header still arriving waits
for it, and a late header that fails or is foreign is counted and makes the MISS at once (the model's choice, log entry 12). The
wake of a kit whose bring-up at CONFIRMED a FIELD_RESET abandoned in the same slot is judged too (the model's choice, log entry
39). -/
def Obligations.MissingReplyIsMiss : Prop :=
  ∀ (s : State) (e : Exchange), 1 ≤ e.slot → e.slot ≤ 384 → s.lc.exchange = some e → s.fp.recordMade = false →
    let l := s.link e.slot
    let v := s.linkVol e.slot
    let misses := min (l.misses + 1) 255
    let silent := l.state = .bound ∧ s.ret.config.silenceLimit ≤ misses
    let judged (fp : FieldPort) (counters : NodeCounters) (w : LinkVolatile) (records : List Report) : State :=
      State.handAll (((State.mk s.powered s.retentionValid s.ret s.tp s.ru { s.lc with exchange := none } fp counters s.pending
        s.freeCount).setLink e.slot { l with
          state := if silent then .silent else l.state
          history := (l.history ++ [WakeOutcome.miss]).drop (l.history.length + 1 - 8), misses := misses }).setLinkVol e.slot
            { w with missedWakes := min (w.missedWakes + 1) 65535 })
        ((if silent then [⟨0, e.slot, .link e.kitId (.silent misses)⟩] else []) ++ records)
    let noEcho (p : Probe) : Report := ⟨p.tag, e.slot, .probeResult e.kitId p .noEcho s.fp.cycle⟩
    let closed := { s.fp with window := .closed }
    let cutTo (blocks : List Block) (t : State) := s.powered = true → s.fp.busy = false →
      let u := { t with fp := { t.fp with window := .closed, recordMade := false, downlink := .silent, reception := none } }
      (∀ n < 23, s.fp.place = .data n → exec (.slotStart blocks) s = exec (.slotStart []) u) ∧
      (s.fp.place = .data 23 → s.ret.active.gap ≠ 0 →
        exec (.gapStart blocks) s = .next { u with fp := { u.fp with place := .gap } }) ∧
      (s.fp.place = .data 23 → s.ret.active.gap = 0 → exec (.cycleStart blocks) s = exec (.cycleStart []) u)
    let missed (fp : FieldPort) (counters : NodeCounters) (outcome : State → Prop) :=
      (∀ carried, e.kind = .poll carried → outcome (judged fp counters { v with reportTaken := false } [])) ∧
      (∀ p, e.kind = .probe (some p) → outcome (judged fp counters { v with probe := none } [noEcho p])) ∧
      (e.kind = .probe none → outcome (judged fp counters v [])) ∧
      (e.kind.isPoll = false → (∀ p, e.kind ≠ .probe p) →
        outcome { s with fp := fp, counters := counters, lc := { s.lc with exchange := none } })
    (s.fp.window = .open → s.fp.reception = none →
      exec (.replyWindowClose true) s = .next { s with fp := { s.fp with window := .lateHeader } } ∧
      missed closed s.counters fun t => exec (.replyWindowClose false) s = .next t) ∧
    (∀ n word (block : HeaderBlock), s.fp.place = .data n → s.fp.window = .lateHeader → s.fp.reception = none →
      s.powered = true → s.fp.status = .claimed → s.fp.effective ≠ .quiet → s.fp.downlink = .silent → block.outside = false →
      let dropped (name : CounterName) :=
        missed closed (s.counters.bump name) fun t => exec (.fieldHeaderBlock word block) s = .next t
      (decodeBlock 8 block.bytes = none → dropped .headerFails) ∧
      ∀ d, decodeBlock 8 block.bytes = some d →
        let ours := field d.data 1 2 = s.fp.idInEffect ∧ byteAt d.data 5 % 64 = s.fp.cycle % 64
        let kinds := [some UpKind.report, some .ability, some .confirm, some .echo]
        (4 < byteAt d.data 6 → dropped .headerFails) ∧
        (byteAt d.data 6 ≤ 4 → ¬ ours ∨ UpKind.ofCode (byteAt d.data 0) ∉ kinds → dropped .foreignField)) ∧
    (∀ r, s.fp.window = .open → s.fp.reception = some r → ∀ arriving,
      exec (.replyWindowClose arriving) s = .next { s with fp := closed }) ∧
    (∀ n r blocks, s.fp.place = .data n → s.fp.reception = some r →
      let arrival := r.arrival blocks true
      let fp := { s.fp with reception := none, recordMade := true }
      let counters := if blocks.length < r.blockCount
        then { s.counters with shortFrames := min (s.counters.shortFrames + 1) 65535 } else s.counters
      let lost (asked : UpKind) := arrival.payload = none ∨ r.kind ≠ asked ∨ r.address ≠ e.slot
      let failed (asked : UpKind) (w : LinkVolatile) : LinkVolatile :=
        if r.kind = asked ∧ r.address = e.slot then
          { w with
            failedFrames := min (w.failedFrames + 1) 65535
            correctedBlocks := min (w.correctedBlocks + arrival.corrected) 65535 }
        else w
      let ends (t : State) := exec (.carrierLossEnd blocks) s = .next t ∧ exec (.fieldFrameEnd blocks) s = .next t ∧
        cutTo blocks t
      (blocks.length < r.blockCount → arrival.payload = none) ∧
      (∀ carried, e.kind = .poll carried → lost .report →
        ends (judged fp counters (failed .report { v with reportTaken := false }) [])) ∧
      (∀ p, e.kind = .probe (some p) → lost .echo → ends (judged fp counters (failed .echo { v with probe := none }) [noEcho p])) ∧
      (e.kind = .probe none → lost .echo → ends (judged fp counters (failed .echo v) [])) ∧
      (e.kind.isPoll = false → (∀ p, e.kind ≠ .probe p) → arrival.payload = none →
        ends { s with fp := fp, counters := counters, lc := { s.lc with exchange := none } })) ∧
    (∀ n, s.fp.place = .data n → s.fp.window ≠ .closed → s.fp.reception = none →
      missed s.fp s.counters (cutTo []))

/-- A CALL received in a contention slot (R111, R134 to R136, R155): a payload that differs from the sampled word is a collision,
calls closed turn it away, an unknown kit is reported, a queued kit's urgency can only rise, a new kit joins the queue by its
order with its link's kit id and progress WAITING, and a full queue drops the call with its alarm. The members of the new queue
are exactly the former ones and the new entry, or the former ones with the one entry re-ranked. A CALL that ends short, which is
counted (R115), or whose payload fails is discarded with nothing queued, whatever ends it. That the word is compared before calls
open, and that a failed CALL is not counted in CALLS_DROPPED, is the model's choice (log entry 11). -/
def Obligations.CallsAreQueued : Prop :=
  ∀ (s : State) (blocks : List Block) (n : Nat) (r : FieldReception), s.fp.place = .contention n → s.fp.reception = some r →
    let u : State := { s with fp := { s.fp with reception := none } }
    (blocks.length < r.blockCount → (r.arrival blocks false).payload = none) ∧
    ((r.arrival blocks false).payload = none →
      let t := if blocks.length < r.blockCount then u.bump .shortFrames else u
      exec (.fieldFrameEnd blocks) s = .next t ∧ exec (.carrierLossEnd blocks) s = .next t ∧
      (s.powered = true → s.fp.busy = false → exec (.slotStart blocks) s = exec (.slotStart [])
        { t with fp := { t.fp with window := .closed, recordMade := false, downlink := .silent } })) ∧
    ∀ payload : List Byte, r.blockCount ≤ blocks.length → (r.arrival blocks false).payload = some payload → s.KitIdsUnique →
    let kitId := field payload 0 4
    let urgency := byteAt payload 4 % 4
    let outcome (t : State) := exec (.fieldFrameEnd blocks) s = .next t
    let matching := urgency * 16384 + kitId % 16384 = r.word.toNat
    let callsOpen := s.fp.callsOpen = true ∧ s.fp.effective = .run
    let unqueued := ∀ c ∈ s.lc.callers, c.kitId ≠ kitId
    (¬ matching → outcome (u.bump .contentionCollisions)) ∧
    (matching → ¬ callsOpen → outcome (u.bump .callsDropped)) ∧
    (matching → callsOpen →
      ((∀ k a, s.account k = some a → a.kitId ≠ kitId) →
        outcome ((u.bump .unknownCalls).hand ⟨0, 0, .unknownKit kitId urgency⟩)) ∧
      ∀ k a, s.account k = some a → a.kitId = kitId →
        (unqueued → s.lc.callers.length < 8 →
          outcome (((({ u with lc := { u.lc with
            callers := insertCaller ⟨kitId, k, urgency, s.lc.nextArrival, none, false⟩ s.lc.callers
            nextArrival := s.lc.nextArrival + 1 } } : State).setLink k { s.link k with kitId := some kitId }).setLinkVol k
              { s.linkVol k with
                progress := some .waiting, page1 := none, page2 := none, mismatches := 0, declineCause := none
                declineAge := 0 })) ∧
          (insertCaller ⟨kitId, k, urgency, s.lc.nextArrival, none, false⟩ s.lc.callers).Perm
            (⟨kitId, k, urgency, s.lc.nextArrival, none, false⟩ :: s.lc.callers)) ∧
        (unqueued → 8 ≤ s.lc.callers.length → outcome ((u.bump .callsDropped).raise .callerOverflow)) ∧
        (∀ c, s.lc.callers.find? (fun c => c.kitId == kitId) = some c →
          (c.urgency ≤ urgency → outcome u) ∧
          (urgency < c.urgency → outcome { u with lc := { u.lc with
            callers := insertCaller { c with urgency := urgency }
              (s.lc.callers.filter fun d => d.kitId != kitId) } } ∧
            (insertCaller { c with urgency := urgency } (s.lc.callers.filter fun d => d.kitId != kitId)).Perm
              ({ c with urgency := urgency } :: s.lc.callers.filter fun d => d.kitId != kitId))))

/-- The block code and the frame (R113, R115, R187). A block of 8 or 10 data bytes decodes to them; with any one bit of data or
check byte inverted it is corrected and counts as corrected; with any two inverted it is uncorrectable. The blocks made of a
payload whose length is that of the frame's kind, at most one bit of each inverted, are received as that payload, each corrected
block counted. A frame with a block too few, an uncorrectable block, a CRC-16 that differs or a block count that is not its kind's
(for ABILITY its page's) has no good payload; any other has the bytes of its blocks but the CRC-16. -/
def Obligations.FieldBlocksAndFramesDecode : Prop :=
  (∀ data : List Byte, data.length = 8 ∨ data.length = 10 →
    let n := data.length
    decodeBlock n (encodeBlock data) = some ⟨data, false⟩ ∧
    (∀ i < 8 * n + 8, decodeBlock n (plantError (encodeBlock data) i) = some ⟨data, true⟩) ∧
    (∀ i < 8 * n + 8, ∀ j < 8 * n + 8, i ≠ j →
      decodeBlock n (plantError (plantError (encodeBlock data) i) j) = none)) ∧
  ∀ (r : FieldReception) (first : Bool),
    let n := r.blockCount
    let size (i : Nat) := if i + 1 = n then 10 else 8
    let due (payload : List Byte) := match r.kind with
      | .call => n = 1
      | .report => n = 2
      | .confirm => n = 3
      | .echo => n = 4
      | .ability => byteAt payload 0 = 1 ∧ n = 3 ∨ byteAt payload 0 = 2 ∧ n = 1
    (∀ payload : List Byte, payload.length = 8 * n → due payload →
      ∀ inverted : Nat → Option Nat, (∀ i bit, inverted i = some bit → bit < 8 * size i + 8) →
        r.arrival ((payloadBlocks payload).mapIdx fun i block => match inverted i with
          | some bit => plantError block bit
          | none => block) first =
          { kind := r.kind, address := r.address, payload := some payload, first := first, flags := r.flags
            corrected := (if r.corrected then 1 else 0) + ((List.range n).filter fun i => (inverted i).isSome).length }) ∧
    ∀ blocks : List Block,
      let payload := (r.arrival blocks first).payload
      (blocks.length < n → payload = none) ∧
      (∀ i < n, decodeBlock (size i) (blocks.getD i []) = none → payload = none) ∧
      (∀ parts : List (List Byte), parts.length = n → n ≤ blocks.length →
        (∀ i < n, (decodeBlock (size i) (blocks.getD i [])).map Decoded.data = some (parts.getD i [])) →
        let bytes := parts.flatten.take (8 * n)
        let crc := parts.flatten.drop (8 * n)
        (crc ≠ beBytes 2 (crc16 bytes).toNat → payload = none) ∧
        (¬ due bytes → payload = none) ∧
        (crc = beBytes 2 (crc16 bytes).toNat → due bytes → payload = some bytes))
end

