-- ==== Sys2Proof/Laws/State.lean ====
section
/-!
SUPPORT. What each named update of the state writes and what it leaves: one lemma for each field and update, true by `rfl`.
-/

namespace Sys2Proof.Machine

variable (s : State)

/-! ### setAccount -/

@[simp] theorem State.setAccount_powered (slot : Nat) (a : Option Account) :
    (s.setAccount slot a).powered = s.powered := rfl

@[simp] theorem State.setAccount_retentionValid (slot : Nat) (a : Option Account) :
    (s.setAccount slot a).retentionValid = s.retentionValid := rfl

@[simp] theorem State.setAccount_ret_accounts (slot : Nat) (a : Option Account) :
    (s.setAccount slot a).ret.accounts = s.ret.accounts.setIfInBounds (slotPos slot) a := rfl

@[simp] theorem State.setAccount_ret_plans (slot : Nat) (a : Option Account) :
    (s.setAccount slot a).ret.plans = s.ret.plans := rfl

@[simp] theorem State.setAccount_ret_entries (slot : Nat) (a : Option Account) :
    (s.setAccount slot a).ret.entries = s.ret.entries := rfl

@[simp] theorem State.setAccount_ret_limit (slot : Nat) (a : Option Account) :
    (s.setAccount slot a).ret.limit = s.ret.limit := rfl

@[simp] theorem State.setAccount_ret_calendar (slot : Nat) (a : Option Account) :
    (s.setAccount slot a).ret.calendar = s.ret.calendar := rfl

@[simp] theorem State.setAccount_ret_links (slot : Nat) (a : Option Account) :
    (s.setAccount slot a).ret.links = s.ret.links := rfl

@[simp] theorem State.setAccount_ret_clock (slot : Nat) (a : Option Account) :
    (s.setAccount slot a).ret.clock = s.ret.clock := rfl

@[simp] theorem State.setAccount_ret_nodeId (slot : Nat) (a : Option Account) :
    (s.setAccount slot a).ret.nodeId = s.ret.nodeId := rfl

@[simp] theorem State.setAccount_ret_rank (slot : Nat) (a : Option Account) :
    (s.setAccount slot a).ret.rank = s.ret.rank := rfl

@[simp] theorem State.setAccount_ret_config (slot : Nat) (a : Option Account) :
    (s.setAccount slot a).ret.config = s.ret.config := rfl

@[simp] theorem State.setAccount_ret_requested (slot : Nat) (a : Option Account) :
    (s.setAccount slot a).ret.requested = s.ret.requested := rfl

@[simp] theorem State.setAccount_ret_active (slot : Nat) (a : Option Account) :
    (s.setAccount slot a).ret.active = s.ret.active := rfl

@[simp] theorem State.setAccount_tp (slot : Nat) (a : Option Account) :
    (s.setAccount slot a).tp = s.tp := rfl

@[simp] theorem State.setAccount_ru (slot : Nat) (a : Option Account) :
    (s.setAccount slot a).ru = s.ru := rfl

@[simp] theorem State.setAccount_lc (slot : Nat) (a : Option Account) :
    (s.setAccount slot a).lc = s.lc := rfl

@[simp] theorem State.setAccount_fp (slot : Nat) (a : Option Account) :
    (s.setAccount slot a).fp = s.fp := rfl

@[simp] theorem State.setAccount_counters (slot : Nat) (a : Option Account) :
    (s.setAccount slot a).counters = s.counters := rfl

@[simp] theorem State.setAccount_pending (slot : Nat) (a : Option Account) :
    (s.setAccount slot a).pending = s.pending := rfl

@[simp] theorem State.setAccount_freeCount (slot : Nat) (a : Option Account) :
    (s.setAccount slot a).freeCount = s.freeCount := rfl

/-! ### setPlan -/

@[simp] theorem State.setPlan_powered (n : Nat) (p : Option Plan) :
    (s.setPlan n p).powered = s.powered := rfl

@[simp] theorem State.setPlan_retentionValid (n : Nat) (p : Option Plan) :
    (s.setPlan n p).retentionValid = s.retentionValid := rfl

@[simp] theorem State.setPlan_ret_accounts (n : Nat) (p : Option Plan) :
    (s.setPlan n p).ret.accounts = s.ret.accounts := rfl

@[simp] theorem State.setPlan_ret_plans (n : Nat) (p : Option Plan) :
    (s.setPlan n p).ret.plans = s.ret.plans.setIfInBounds n p := rfl

@[simp] theorem State.setPlan_ret_entries (n : Nat) (p : Option Plan) :
    (s.setPlan n p).ret.entries = s.ret.entries := rfl

@[simp] theorem State.setPlan_ret_limit (n : Nat) (p : Option Plan) :
    (s.setPlan n p).ret.limit = s.ret.limit := rfl

@[simp] theorem State.setPlan_ret_calendar (n : Nat) (p : Option Plan) :
    (s.setPlan n p).ret.calendar = s.ret.calendar := rfl

@[simp] theorem State.setPlan_ret_links (n : Nat) (p : Option Plan) :
    (s.setPlan n p).ret.links = s.ret.links := rfl

@[simp] theorem State.setPlan_ret_clock (n : Nat) (p : Option Plan) :
    (s.setPlan n p).ret.clock = s.ret.clock := rfl

@[simp] theorem State.setPlan_ret_nodeId (n : Nat) (p : Option Plan) :
    (s.setPlan n p).ret.nodeId = s.ret.nodeId := rfl

@[simp] theorem State.setPlan_ret_rank (n : Nat) (p : Option Plan) :
    (s.setPlan n p).ret.rank = s.ret.rank := rfl

@[simp] theorem State.setPlan_ret_config (n : Nat) (p : Option Plan) :
    (s.setPlan n p).ret.config = s.ret.config := rfl

@[simp] theorem State.setPlan_ret_requested (n : Nat) (p : Option Plan) :
    (s.setPlan n p).ret.requested = s.ret.requested := rfl

@[simp] theorem State.setPlan_ret_active (n : Nat) (p : Option Plan) :
    (s.setPlan n p).ret.active = s.ret.active := rfl

@[simp] theorem State.setPlan_tp (n : Nat) (p : Option Plan) :
    (s.setPlan n p).tp = s.tp := rfl

@[simp] theorem State.setPlan_ru (n : Nat) (p : Option Plan) :
    (s.setPlan n p).ru = s.ru := rfl

@[simp] theorem State.setPlan_lc (n : Nat) (p : Option Plan) :
    (s.setPlan n p).lc = s.lc := rfl

@[simp] theorem State.setPlan_fp (n : Nat) (p : Option Plan) :
    (s.setPlan n p).fp = s.fp := rfl

@[simp] theorem State.setPlan_counters (n : Nat) (p : Option Plan) :
    (s.setPlan n p).counters = s.counters := rfl

@[simp] theorem State.setPlan_pending (n : Nat) (p : Option Plan) :
    (s.setPlan n p).pending = s.pending := rfl

@[simp] theorem State.setPlan_freeCount (n : Nat) (p : Option Plan) :
    (s.setPlan n p).freeCount = s.freeCount := rfl

/-! ### mapUseCount -/

@[simp] theorem State.mapUseCount_powered (n : Nat) (f : Nat → Nat) :
    (s.mapUseCount n f).powered = s.powered := rfl

@[simp] theorem State.mapUseCount_retentionValid (n : Nat) (f : Nat → Nat) :
    (s.mapUseCount n f).retentionValid = s.retentionValid := rfl

@[simp] theorem State.mapUseCount_ret_accounts (n : Nat) (f : Nat → Nat) :
    (s.mapUseCount n f).ret.accounts = s.ret.accounts := rfl

@[simp] theorem State.mapUseCount_ret_entries (n : Nat) (f : Nat → Nat) :
    (s.mapUseCount n f).ret.entries = s.ret.entries := rfl

@[simp] theorem State.mapUseCount_ret_limit (n : Nat) (f : Nat → Nat) :
    (s.mapUseCount n f).ret.limit = s.ret.limit := rfl

@[simp] theorem State.mapUseCount_ret_calendar (n : Nat) (f : Nat → Nat) :
    (s.mapUseCount n f).ret.calendar = s.ret.calendar := rfl

@[simp] theorem State.mapUseCount_ret_links (n : Nat) (f : Nat → Nat) :
    (s.mapUseCount n f).ret.links = s.ret.links := rfl

@[simp] theorem State.mapUseCount_ret_clock (n : Nat) (f : Nat → Nat) :
    (s.mapUseCount n f).ret.clock = s.ret.clock := rfl

@[simp] theorem State.mapUseCount_ret_nodeId (n : Nat) (f : Nat → Nat) :
    (s.mapUseCount n f).ret.nodeId = s.ret.nodeId := rfl

@[simp] theorem State.mapUseCount_ret_rank (n : Nat) (f : Nat → Nat) :
    (s.mapUseCount n f).ret.rank = s.ret.rank := rfl

@[simp] theorem State.mapUseCount_ret_config (n : Nat) (f : Nat → Nat) :
    (s.mapUseCount n f).ret.config = s.ret.config := rfl

@[simp] theorem State.mapUseCount_ret_requested (n : Nat) (f : Nat → Nat) :
    (s.mapUseCount n f).ret.requested = s.ret.requested := rfl

@[simp] theorem State.mapUseCount_ret_active (n : Nat) (f : Nat → Nat) :
    (s.mapUseCount n f).ret.active = s.ret.active := rfl

@[simp] theorem State.mapUseCount_tp (n : Nat) (f : Nat → Nat) :
    (s.mapUseCount n f).tp = s.tp := rfl

@[simp] theorem State.mapUseCount_ru (n : Nat) (f : Nat → Nat) :
    (s.mapUseCount n f).ru = s.ru := rfl

@[simp] theorem State.mapUseCount_lc (n : Nat) (f : Nat → Nat) :
    (s.mapUseCount n f).lc = s.lc := rfl

@[simp] theorem State.mapUseCount_fp (n : Nat) (f : Nat → Nat) :
    (s.mapUseCount n f).fp = s.fp := rfl

@[simp] theorem State.mapUseCount_counters (n : Nat) (f : Nat → Nat) :
    (s.mapUseCount n f).counters = s.counters := rfl

@[simp] theorem State.mapUseCount_pending (n : Nat) (f : Nat → Nat) :
    (s.mapUseCount n f).pending = s.pending := rfl

@[simp] theorem State.mapUseCount_freeCount (n : Nat) (f : Nat → Nat) :
    (s.mapUseCount n f).freeCount = s.freeCount := rfl

/-! ### setEntry -/

@[simp] theorem State.setEntry_powered (cls : Nat) (e : Option Entry) :
    (s.setEntry cls e).powered = s.powered := rfl

@[simp] theorem State.setEntry_retentionValid (cls : Nat) (e : Option Entry) :
    (s.setEntry cls e).retentionValid = s.retentionValid := rfl

@[simp] theorem State.setEntry_ret_accounts (cls : Nat) (e : Option Entry) :
    (s.setEntry cls e).ret.accounts = s.ret.accounts := rfl

@[simp] theorem State.setEntry_ret_plans (cls : Nat) (e : Option Entry) :
    (s.setEntry cls e).ret.plans = s.ret.plans := rfl

@[simp] theorem State.setEntry_ret_entries (cls : Nat) (e : Option Entry) :
    (s.setEntry cls e).ret.entries = s.ret.entries.setIfInBounds cls e := rfl

@[simp] theorem State.setEntry_ret_limit (cls : Nat) (e : Option Entry) :
    (s.setEntry cls e).ret.limit = s.ret.limit := rfl

@[simp] theorem State.setEntry_ret_calendar (cls : Nat) (e : Option Entry) :
    (s.setEntry cls e).ret.calendar = s.ret.calendar := rfl

@[simp] theorem State.setEntry_ret_links (cls : Nat) (e : Option Entry) :
    (s.setEntry cls e).ret.links = s.ret.links := rfl

@[simp] theorem State.setEntry_ret_clock (cls : Nat) (e : Option Entry) :
    (s.setEntry cls e).ret.clock = s.ret.clock := rfl

@[simp] theorem State.setEntry_ret_nodeId (cls : Nat) (e : Option Entry) :
    (s.setEntry cls e).ret.nodeId = s.ret.nodeId := rfl

@[simp] theorem State.setEntry_ret_rank (cls : Nat) (e : Option Entry) :
    (s.setEntry cls e).ret.rank = s.ret.rank := rfl

@[simp] theorem State.setEntry_ret_config (cls : Nat) (e : Option Entry) :
    (s.setEntry cls e).ret.config = s.ret.config := rfl

@[simp] theorem State.setEntry_ret_requested (cls : Nat) (e : Option Entry) :
    (s.setEntry cls e).ret.requested = s.ret.requested := rfl

@[simp] theorem State.setEntry_ret_active (cls : Nat) (e : Option Entry) :
    (s.setEntry cls e).ret.active = s.ret.active := rfl

@[simp] theorem State.setEntry_tp (cls : Nat) (e : Option Entry) :
    (s.setEntry cls e).tp = s.tp := rfl

@[simp] theorem State.setEntry_ru (cls : Nat) (e : Option Entry) :
    (s.setEntry cls e).ru = s.ru := rfl

@[simp] theorem State.setEntry_lc (cls : Nat) (e : Option Entry) :
    (s.setEntry cls e).lc = s.lc := rfl

@[simp] theorem State.setEntry_fp (cls : Nat) (e : Option Entry) :
    (s.setEntry cls e).fp = s.fp := rfl

@[simp] theorem State.setEntry_counters (cls : Nat) (e : Option Entry) :
    (s.setEntry cls e).counters = s.counters := rfl

@[simp] theorem State.setEntry_pending (cls : Nat) (e : Option Entry) :
    (s.setEntry cls e).pending = s.pending := rfl

@[simp] theorem State.setEntry_freeCount (cls : Nat) (e : Option Entry) :
    (s.setEntry cls e).freeCount = s.freeCount := rfl

/-! ### setLink -/

@[simp] theorem State.setLink_powered (slot : Nat) (l : LinkRetained) :
    (s.setLink slot l).powered = s.powered := rfl

@[simp] theorem State.setLink_retentionValid (slot : Nat) (l : LinkRetained) :
    (s.setLink slot l).retentionValid = s.retentionValid := rfl

@[simp] theorem State.setLink_ret_accounts (slot : Nat) (l : LinkRetained) :
    (s.setLink slot l).ret.accounts = s.ret.accounts := rfl

@[simp] theorem State.setLink_ret_plans (slot : Nat) (l : LinkRetained) :
    (s.setLink slot l).ret.plans = s.ret.plans := rfl

@[simp] theorem State.setLink_ret_entries (slot : Nat) (l : LinkRetained) :
    (s.setLink slot l).ret.entries = s.ret.entries := rfl

@[simp] theorem State.setLink_ret_limit (slot : Nat) (l : LinkRetained) :
    (s.setLink slot l).ret.limit = s.ret.limit := rfl

@[simp] theorem State.setLink_ret_calendar (slot : Nat) (l : LinkRetained) :
    (s.setLink slot l).ret.calendar = s.ret.calendar := rfl

@[simp] theorem State.setLink_ret_links (slot : Nat) (l : LinkRetained) :
    (s.setLink slot l).ret.links = s.ret.links.setIfInBounds (slotPos slot) l := rfl

@[simp] theorem State.setLink_ret_clock (slot : Nat) (l : LinkRetained) :
    (s.setLink slot l).ret.clock = s.ret.clock := rfl

@[simp] theorem State.setLink_ret_nodeId (slot : Nat) (l : LinkRetained) :
    (s.setLink slot l).ret.nodeId = s.ret.nodeId := rfl

@[simp] theorem State.setLink_ret_rank (slot : Nat) (l : LinkRetained) :
    (s.setLink slot l).ret.rank = s.ret.rank := rfl

@[simp] theorem State.setLink_ret_config (slot : Nat) (l : LinkRetained) :
    (s.setLink slot l).ret.config = s.ret.config := rfl

@[simp] theorem State.setLink_ret_requested (slot : Nat) (l : LinkRetained) :
    (s.setLink slot l).ret.requested = s.ret.requested := rfl

@[simp] theorem State.setLink_ret_active (slot : Nat) (l : LinkRetained) :
    (s.setLink slot l).ret.active = s.ret.active := rfl

@[simp] theorem State.setLink_tp (slot : Nat) (l : LinkRetained) :
    (s.setLink slot l).tp = s.tp := rfl

@[simp] theorem State.setLink_ru (slot : Nat) (l : LinkRetained) :
    (s.setLink slot l).ru = s.ru := rfl

@[simp] theorem State.setLink_lc (slot : Nat) (l : LinkRetained) :
    (s.setLink slot l).lc = s.lc := rfl

@[simp] theorem State.setLink_fp (slot : Nat) (l : LinkRetained) :
    (s.setLink slot l).fp = s.fp := rfl

@[simp] theorem State.setLink_counters (slot : Nat) (l : LinkRetained) :
    (s.setLink slot l).counters = s.counters := rfl

@[simp] theorem State.setLink_pending (slot : Nat) (l : LinkRetained) :
    (s.setLink slot l).pending = s.pending := rfl

@[simp] theorem State.setLink_freeCount (slot : Nat) (l : LinkRetained) :
    (s.setLink slot l).freeCount = s.freeCount := rfl

/-! ### mapLink -/

@[simp] theorem State.mapLink_powered (slot : Nat) (f : LinkRetained → LinkRetained) :
    (s.mapLink slot f).powered = s.powered := rfl

@[simp] theorem State.mapLink_retentionValid (slot : Nat) (f : LinkRetained → LinkRetained) :
    (s.mapLink slot f).retentionValid = s.retentionValid := rfl

@[simp] theorem State.mapLink_ret_accounts (slot : Nat) (f : LinkRetained → LinkRetained) :
    (s.mapLink slot f).ret.accounts = s.ret.accounts := rfl

@[simp] theorem State.mapLink_ret_plans (slot : Nat) (f : LinkRetained → LinkRetained) :
    (s.mapLink slot f).ret.plans = s.ret.plans := rfl

@[simp] theorem State.mapLink_ret_entries (slot : Nat) (f : LinkRetained → LinkRetained) :
    (s.mapLink slot f).ret.entries = s.ret.entries := rfl

@[simp] theorem State.mapLink_ret_limit (slot : Nat) (f : LinkRetained → LinkRetained) :
    (s.mapLink slot f).ret.limit = s.ret.limit := rfl

@[simp] theorem State.mapLink_ret_calendar (slot : Nat) (f : LinkRetained → LinkRetained) :
    (s.mapLink slot f).ret.calendar = s.ret.calendar := rfl

@[simp] theorem State.mapLink_ret_links (slot : Nat) (f : LinkRetained → LinkRetained) :
    (s.mapLink slot f).ret.links = s.ret.links.setIfInBounds (slotPos slot) (f (s.link slot)) := rfl

@[simp] theorem State.mapLink_ret_clock (slot : Nat) (f : LinkRetained → LinkRetained) :
    (s.mapLink slot f).ret.clock = s.ret.clock := rfl

@[simp] theorem State.mapLink_ret_nodeId (slot : Nat) (f : LinkRetained → LinkRetained) :
    (s.mapLink slot f).ret.nodeId = s.ret.nodeId := rfl

@[simp] theorem State.mapLink_ret_rank (slot : Nat) (f : LinkRetained → LinkRetained) :
    (s.mapLink slot f).ret.rank = s.ret.rank := rfl

@[simp] theorem State.mapLink_ret_config (slot : Nat) (f : LinkRetained → LinkRetained) :
    (s.mapLink slot f).ret.config = s.ret.config := rfl

@[simp] theorem State.mapLink_ret_requested (slot : Nat) (f : LinkRetained → LinkRetained) :
    (s.mapLink slot f).ret.requested = s.ret.requested := rfl

@[simp] theorem State.mapLink_ret_active (slot : Nat) (f : LinkRetained → LinkRetained) :
    (s.mapLink slot f).ret.active = s.ret.active := rfl

@[simp] theorem State.mapLink_tp (slot : Nat) (f : LinkRetained → LinkRetained) :
    (s.mapLink slot f).tp = s.tp := rfl

@[simp] theorem State.mapLink_ru (slot : Nat) (f : LinkRetained → LinkRetained) :
    (s.mapLink slot f).ru = s.ru := rfl

@[simp] theorem State.mapLink_lc (slot : Nat) (f : LinkRetained → LinkRetained) :
    (s.mapLink slot f).lc = s.lc := rfl

@[simp] theorem State.mapLink_fp (slot : Nat) (f : LinkRetained → LinkRetained) :
    (s.mapLink slot f).fp = s.fp := rfl

@[simp] theorem State.mapLink_counters (slot : Nat) (f : LinkRetained → LinkRetained) :
    (s.mapLink slot f).counters = s.counters := rfl

@[simp] theorem State.mapLink_pending (slot : Nat) (f : LinkRetained → LinkRetained) :
    (s.mapLink slot f).pending = s.pending := rfl

@[simp] theorem State.mapLink_freeCount (slot : Nat) (f : LinkRetained → LinkRetained) :
    (s.mapLink slot f).freeCount = s.freeCount := rfl

/-! ### fillCells -/

@[simp] theorem State.fillCells_powered (p : Placement) (v : Option Nat) :
    (s.fillCells p v).powered = s.powered := rfl

@[simp] theorem State.fillCells_retentionValid (p : Placement) (v : Option Nat) :
    (s.fillCells p v).retentionValid = s.retentionValid := rfl

@[simp] theorem State.fillCells_ret_accounts (p : Placement) (v : Option Nat) :
    (s.fillCells p v).ret.accounts = s.ret.accounts := rfl

@[simp] theorem State.fillCells_ret_plans (p : Placement) (v : Option Nat) :
    (s.fillCells p v).ret.plans = s.ret.plans := rfl

@[simp] theorem State.fillCells_ret_entries (p : Placement) (v : Option Nat) :
    (s.fillCells p v).ret.entries = s.ret.entries := rfl

@[simp] theorem State.fillCells_ret_limit (p : Placement) (v : Option Nat) :
    (s.fillCells p v).ret.limit = s.ret.limit := rfl

@[simp] theorem State.fillCells_ret_calendar (p : Placement) (v : Option Nat) :
    (s.fillCells p v).ret.calendar = p.cells.foldl (fun c i => c.setIfInBounds i v) s.ret.calendar := rfl

@[simp] theorem State.fillCells_ret_links (p : Placement) (v : Option Nat) :
    (s.fillCells p v).ret.links = s.ret.links := rfl

@[simp] theorem State.fillCells_ret_clock (p : Placement) (v : Option Nat) :
    (s.fillCells p v).ret.clock = s.ret.clock := rfl

@[simp] theorem State.fillCells_ret_nodeId (p : Placement) (v : Option Nat) :
    (s.fillCells p v).ret.nodeId = s.ret.nodeId := rfl

@[simp] theorem State.fillCells_ret_rank (p : Placement) (v : Option Nat) :
    (s.fillCells p v).ret.rank = s.ret.rank := rfl

@[simp] theorem State.fillCells_ret_config (p : Placement) (v : Option Nat) :
    (s.fillCells p v).ret.config = s.ret.config := rfl

@[simp] theorem State.fillCells_ret_requested (p : Placement) (v : Option Nat) :
    (s.fillCells p v).ret.requested = s.ret.requested := rfl

@[simp] theorem State.fillCells_ret_active (p : Placement) (v : Option Nat) :
    (s.fillCells p v).ret.active = s.ret.active := rfl

@[simp] theorem State.fillCells_tp (p : Placement) (v : Option Nat) :
    (s.fillCells p v).tp = s.tp := rfl

@[simp] theorem State.fillCells_ru (p : Placement) (v : Option Nat) :
    (s.fillCells p v).ru = s.ru := rfl

@[simp] theorem State.fillCells_lc (p : Placement) (v : Option Nat) :
    (s.fillCells p v).lc = s.lc := rfl

@[simp] theorem State.fillCells_fp (p : Placement) (v : Option Nat) :
    (s.fillCells p v).fp = s.fp := rfl

@[simp] theorem State.fillCells_counters (p : Placement) (v : Option Nat) :
    (s.fillCells p v).counters = s.counters := rfl

@[simp] theorem State.fillCells_pending (p : Placement) (v : Option Nat) :
    (s.fillCells p v).pending = s.pending := rfl

@[simp] theorem State.fillCells_freeCount (p : Placement) (v : Option Nat) :
    (s.fillCells p v).freeCount = s.freeCount := rfl

/-! ### setLinkVol -/

@[simp] theorem State.setLinkVol_powered (slot : Nat) (v : LinkVolatile) :
    (s.setLinkVol slot v).powered = s.powered := rfl

@[simp] theorem State.setLinkVol_retentionValid (slot : Nat) (v : LinkVolatile) :
    (s.setLinkVol slot v).retentionValid = s.retentionValid := rfl

@[simp] theorem State.setLinkVol_ret (slot : Nat) (v : LinkVolatile) :
    (s.setLinkVol slot v).ret = s.ret := rfl

@[simp] theorem State.setLinkVol_tp (slot : Nat) (v : LinkVolatile) :
    (s.setLinkVol slot v).tp = s.tp := rfl

@[simp] theorem State.setLinkVol_ru (slot : Nat) (v : LinkVolatile) :
    (s.setLinkVol slot v).ru = s.ru := rfl

@[simp] theorem State.setLinkVol_lc (slot : Nat) (v : LinkVolatile) :
    (s.setLinkVol slot v).lc = { s.lc with links := s.lc.links.setIfInBounds (slotPos slot) v } := rfl

@[simp] theorem State.setLinkVol_fp (slot : Nat) (v : LinkVolatile) :
    (s.setLinkVol slot v).fp = s.fp := rfl

@[simp] theorem State.setLinkVol_counters (slot : Nat) (v : LinkVolatile) :
    (s.setLinkVol slot v).counters = s.counters := rfl

@[simp] theorem State.setLinkVol_pending (slot : Nat) (v : LinkVolatile) :
    (s.setLinkVol slot v).pending = s.pending := rfl

@[simp] theorem State.setLinkVol_freeCount (slot : Nat) (v : LinkVolatile) :
    (s.setLinkVol slot v).freeCount = s.freeCount := rfl

/-! ### mapLinkVol -/

@[simp] theorem State.mapLinkVol_powered (slot : Nat) (f : LinkVolatile → LinkVolatile) :
    (s.mapLinkVol slot f).powered = s.powered := rfl

@[simp] theorem State.mapLinkVol_retentionValid (slot : Nat) (f : LinkVolatile → LinkVolatile) :
    (s.mapLinkVol slot f).retentionValid = s.retentionValid := rfl

@[simp] theorem State.mapLinkVol_ret (slot : Nat) (f : LinkVolatile → LinkVolatile) :
    (s.mapLinkVol slot f).ret = s.ret := rfl

@[simp] theorem State.mapLinkVol_tp (slot : Nat) (f : LinkVolatile → LinkVolatile) :
    (s.mapLinkVol slot f).tp = s.tp := rfl

@[simp] theorem State.mapLinkVol_ru (slot : Nat) (f : LinkVolatile → LinkVolatile) :
    (s.mapLinkVol slot f).ru = s.ru := rfl

@[simp] theorem State.mapLinkVol_lc (slot : Nat) (f : LinkVolatile → LinkVolatile) :
    (s.mapLinkVol slot f).lc = { s.lc with links := s.lc.links.setIfInBounds (slotPos slot) (f (s.linkVol slot)) } := rfl

@[simp] theorem State.mapLinkVol_fp (slot : Nat) (f : LinkVolatile → LinkVolatile) :
    (s.mapLinkVol slot f).fp = s.fp := rfl

@[simp] theorem State.mapLinkVol_counters (slot : Nat) (f : LinkVolatile → LinkVolatile) :
    (s.mapLinkVol slot f).counters = s.counters := rfl

@[simp] theorem State.mapLinkVol_pending (slot : Nat) (f : LinkVolatile → LinkVolatile) :
    (s.mapLinkVol slot f).pending = s.pending := rfl

@[simp] theorem State.mapLinkVol_freeCount (slot : Nat) (f : LinkVolatile → LinkVolatile) :
    (s.mapLinkVol slot f).freeCount = s.freeCount := rfl

/-! ### setCallers -/

@[simp] theorem State.setCallers_powered (cs : List Caller) :
    (s.setCallers cs).powered = s.powered := rfl

@[simp] theorem State.setCallers_retentionValid (cs : List Caller) :
    (s.setCallers cs).retentionValid = s.retentionValid := rfl

@[simp] theorem State.setCallers_ret (cs : List Caller) :
    (s.setCallers cs).ret = s.ret := rfl

@[simp] theorem State.setCallers_tp (cs : List Caller) :
    (s.setCallers cs).tp = s.tp := rfl

@[simp] theorem State.setCallers_ru (cs : List Caller) :
    (s.setCallers cs).ru = s.ru := rfl

@[simp] theorem State.setCallers_lc (cs : List Caller) :
    (s.setCallers cs).lc = { s.lc with callers := cs } := rfl

@[simp] theorem State.setCallers_fp (cs : List Caller) :
    (s.setCallers cs).fp = s.fp := rfl

@[simp] theorem State.setCallers_counters (cs : List Caller) :
    (s.setCallers cs).counters = s.counters := rfl

@[simp] theorem State.setCallers_pending (cs : List Caller) :
    (s.setCallers cs).pending = s.pending := rfl

@[simp] theorem State.setCallers_freeCount (cs : List Caller) :
    (s.setCallers cs).freeCount = s.freeCount := rfl

/-! ### mapCaller -/

@[simp] theorem State.mapCaller_powered (slot : Nat) (f : Caller → Caller) :
    (s.mapCaller slot f).powered = s.powered := rfl

@[simp] theorem State.mapCaller_retentionValid (slot : Nat) (f : Caller → Caller) :
    (s.mapCaller slot f).retentionValid = s.retentionValid := rfl

@[simp] theorem State.mapCaller_ret (slot : Nat) (f : Caller → Caller) :
    (s.mapCaller slot f).ret = s.ret := rfl

@[simp] theorem State.mapCaller_tp (slot : Nat) (f : Caller → Caller) :
    (s.mapCaller slot f).tp = s.tp := rfl

@[simp] theorem State.mapCaller_ru (slot : Nat) (f : Caller → Caller) :
    (s.mapCaller slot f).ru = s.ru := rfl

@[simp] theorem State.mapCaller_lc (slot : Nat) (f : Caller → Caller) :
    (s.mapCaller slot f).lc = { s.lc with callers := s.lc.callers.map fun c => if c.slot = slot then f c else c } := rfl

@[simp] theorem State.mapCaller_fp (slot : Nat) (f : Caller → Caller) :
    (s.mapCaller slot f).fp = s.fp := rfl

@[simp] theorem State.mapCaller_counters (slot : Nat) (f : Caller → Caller) :
    (s.mapCaller slot f).counters = s.counters := rfl

@[simp] theorem State.mapCaller_pending (slot : Nat) (f : Caller → Caller) :
    (s.mapCaller slot f).pending = s.pending := rfl

@[simp] theorem State.mapCaller_freeCount (slot : Nat) (f : Caller → Caller) :
    (s.mapCaller slot f).freeCount = s.freeCount := rfl

/-! ### bump -/

@[simp] theorem State.bump_powered (n : CounterName) :
    (s.bump n).powered = s.powered := rfl

@[simp] theorem State.bump_retentionValid (n : CounterName) :
    (s.bump n).retentionValid = s.retentionValid := rfl

@[simp] theorem State.bump_ret (n : CounterName) :
    (s.bump n).ret = s.ret := rfl

@[simp] theorem State.bump_tp (n : CounterName) :
    (s.bump n).tp = s.tp := rfl

@[simp] theorem State.bump_ru (n : CounterName) :
    (s.bump n).ru = s.ru := rfl

@[simp] theorem State.bump_lc (n : CounterName) :
    (s.bump n).lc = s.lc := rfl

@[simp] theorem State.bump_fp (n : CounterName) :
    (s.bump n).fp = s.fp := rfl

@[simp] theorem State.bump_counters (n : CounterName) :
    (s.bump n).counters = s.counters.bump n := rfl

@[simp] theorem State.bump_pending (n : CounterName) :
    (s.bump n).pending = s.pending := rfl

@[simp] theorem State.bump_freeCount (n : CounterName) :
    (s.bump n).freeCount = s.freeCount := rfl

/-! ### enqueue -/

@[simp] theorem State.enqueue_powered (r : Report) :
    (s.enqueue r).powered = s.powered := rfl

@[simp] theorem State.enqueue_retentionValid (r : Report) :
    (s.enqueue r).retentionValid = s.retentionValid := rfl

@[simp] theorem State.enqueue_ret (r : Report) :
    (s.enqueue r).ret = s.ret := rfl

@[simp] theorem State.enqueue_tp (r : Report) :
    (s.enqueue r).tp = s.tp := rfl

@[simp] theorem State.enqueue_ru (r : Report) :
    (s.enqueue r).ru = { s.ru with queue := s.ru.queue ++ [r] } := rfl

@[simp] theorem State.enqueue_lc (r : Report) :
    (s.enqueue r).lc = s.lc := rfl

@[simp] theorem State.enqueue_fp (r : Report) :
    (s.enqueue r).fp = s.fp := rfl

@[simp] theorem State.enqueue_counters (r : Report) :
    (s.enqueue r).counters = s.counters := rfl

@[simp] theorem State.enqueue_pending (r : Report) :
    (s.enqueue r).pending = s.pending := rfl

@[simp] theorem State.enqueue_freeCount (r : Report) :
    (s.enqueue r).freeCount = s.freeCount := rfl

/-! ### tally -/

@[simp] theorem State.tally_powered (g : TallyGroup) :
    (s.tally g).powered = s.powered := rfl

@[simp] theorem State.tally_retentionValid (g : TallyGroup) :
    (s.tally g).retentionValid = s.retentionValid := rfl

@[simp] theorem State.tally_ret (g : TallyGroup) :
    (s.tally g).ret = s.ret := rfl

@[simp] theorem State.tally_tp (g : TallyGroup) :
    (s.tally g).tp = s.tp := rfl

@[simp] theorem State.tally_ru (g : TallyGroup) :
    (s.tally g).ru = { s.ru with tallies := s.ru.tallies.bump g } := rfl

@[simp] theorem State.tally_lc (g : TallyGroup) :
    (s.tally g).lc = s.lc := rfl

@[simp] theorem State.tally_fp (g : TallyGroup) :
    (s.tally g).fp = s.fp := rfl

@[simp] theorem State.tally_counters (g : TallyGroup) :
    (s.tally g).counters = s.counters := rfl

@[simp] theorem State.tally_pending (g : TallyGroup) :
    (s.tally g).pending = s.pending := rfl

@[simp] theorem State.tally_freeCount (g : TallyGroup) :
    (s.tally g).freeCount = s.freeCount := rfl

/-! ### setAlarm -/

@[simp] theorem State.setAlarm_powered (c : AlarmCause) :
    (s.setAlarm c).powered = s.powered := rfl

@[simp] theorem State.setAlarm_retentionValid (c : AlarmCause) :
    (s.setAlarm c).retentionValid = s.retentionValid := rfl

@[simp] theorem State.setAlarm_ret (c : AlarmCause) :
    (s.setAlarm c).ret = s.ret := rfl

@[simp] theorem State.setAlarm_tp (c : AlarmCause) :
    (s.setAlarm c).tp = s.tp := rfl

@[simp] theorem State.setAlarm_ru (c : AlarmCause) :
    (s.setAlarm c).ru = { s.ru with alarms := c.setIn s.ru.alarms } := rfl

@[simp] theorem State.setAlarm_lc (c : AlarmCause) :
    (s.setAlarm c).lc = s.lc := rfl

@[simp] theorem State.setAlarm_fp (c : AlarmCause) :
    (s.setAlarm c).fp = s.fp := rfl

@[simp] theorem State.setAlarm_counters (c : AlarmCause) :
    (s.setAlarm c).counters = s.counters := rfl

@[simp] theorem State.setAlarm_pending (c : AlarmCause) :
    (s.setAlarm c).pending = s.pending := rfl

@[simp] theorem State.setAlarm_freeCount (c : AlarmCause) :
    (s.setAlarm c).freeCount = s.freeCount := rfl

/-! ### clearStatus -/

@[simp] theorem State.clearStatus_powered (m : AlarmFlags) (k : BitVec 5) :
    (s.clearStatus m k).powered = s.powered := rfl

@[simp] theorem State.clearStatus_retentionValid (m : AlarmFlags) (k : BitVec 5) :
    (s.clearStatus m k).retentionValid = s.retentionValid := rfl

@[simp] theorem State.clearStatus_ret (m : AlarmFlags) (k : BitVec 5) :
    (s.clearStatus m k).ret = s.ret := rfl

@[simp] theorem State.clearStatus_tp (m : AlarmFlags) (k : BitVec 5) :
    (s.clearStatus m k).tp = s.tp := rfl

@[simp] theorem State.clearStatus_ru (m : AlarmFlags) (k : BitVec 5) :
    (s.clearStatus m k).ru = { s.ru with alarms := s.ru.alarms &&& ~~~m, tallies := s.ru.tallies.clear k } := rfl

@[simp] theorem State.clearStatus_lc (m : AlarmFlags) (k : BitVec 5) :
    (s.clearStatus m k).lc = s.lc := rfl

@[simp] theorem State.clearStatus_fp (m : AlarmFlags) (k : BitVec 5) :
    (s.clearStatus m k).fp = s.fp := rfl

@[simp] theorem State.clearStatus_counters (m : AlarmFlags) (k : BitVec 5) :
    (s.clearStatus m k).counters = s.counters := rfl

@[simp] theorem State.clearStatus_pending (m : AlarmFlags) (k : BitVec 5) :
    (s.clearStatus m k).pending = s.pending := rfl

@[simp] theorem State.clearStatus_freeCount (m : AlarmFlags) (k : BitVec 5) :
    (s.clearStatus m k).freeCount = s.freeCount := rfl

/-! ### setRxQueue -/

@[simp] theorem State.setRxQueue_powered (q : List RxFrame) :
    (s.setRxQueue q).powered = s.powered := rfl

@[simp] theorem State.setRxQueue_retentionValid (q : List RxFrame) :
    (s.setRxQueue q).retentionValid = s.retentionValid := rfl

@[simp] theorem State.setRxQueue_ret (q : List RxFrame) :
    (s.setRxQueue q).ret = s.ret := rfl

@[simp] theorem State.setRxQueue_tp (q : List RxFrame) :
    (s.setRxQueue q).tp = { s.tp with queue := q } := rfl

@[simp] theorem State.setRxQueue_ru (q : List RxFrame) :
    (s.setRxQueue q).ru = s.ru := rfl

@[simp] theorem State.setRxQueue_lc (q : List RxFrame) :
    (s.setRxQueue q).lc = s.lc := rfl

@[simp] theorem State.setRxQueue_fp (q : List RxFrame) :
    (s.setRxQueue q).fp = s.fp := rfl

@[simp] theorem State.setRxQueue_counters (q : List RxFrame) :
    (s.setRxQueue q).counters = s.counters := rfl

@[simp] theorem State.setRxQueue_pending (q : List RxFrame) :
    (s.setRxQueue q).pending = s.pending := rfl

@[simp] theorem State.setRxQueue_freeCount (q : List RxFrame) :
    (s.setRxQueue q).freeCount = s.freeCount := rfl

/-! ### setReceiver -/

@[simp] theorem State.setReceiver_powered (r : Receiver) :
    (s.setReceiver r).powered = s.powered := rfl

@[simp] theorem State.setReceiver_retentionValid (r : Receiver) :
    (s.setReceiver r).retentionValid = s.retentionValid := rfl

@[simp] theorem State.setReceiver_ret (r : Receiver) :
    (s.setReceiver r).ret = s.ret := rfl

@[simp] theorem State.setReceiver_tp (r : Receiver) :
    (s.setReceiver r).tp = { s.tp with receiver := r } := rfl

@[simp] theorem State.setReceiver_ru (r : Receiver) :
    (s.setReceiver r).ru = s.ru := rfl

@[simp] theorem State.setReceiver_lc (r : Receiver) :
    (s.setReceiver r).lc = s.lc := rfl

@[simp] theorem State.setReceiver_fp (r : Receiver) :
    (s.setReceiver r).fp = s.fp := rfl

@[simp] theorem State.setReceiver_counters (r : Receiver) :
    (s.setReceiver r).counters = s.counters := rfl

@[simp] theorem State.setReceiver_pending (r : Receiver) :
    (s.setReceiver r).pending = s.pending := rfl

@[simp] theorem State.setReceiver_freeCount (r : Receiver) :
    (s.setReceiver r).freeCount = s.freeCount := rfl

/-! ### setTransmitter -/

@[simp] theorem State.setTransmitter_powered (t : Transmitter) :
    (s.setTransmitter t).powered = s.powered := rfl

@[simp] theorem State.setTransmitter_retentionValid (t : Transmitter) :
    (s.setTransmitter t).retentionValid = s.retentionValid := rfl

@[simp] theorem State.setTransmitter_ret (t : Transmitter) :
    (s.setTransmitter t).ret = s.ret := rfl

@[simp] theorem State.setTransmitter_tp (t : Transmitter) :
    (s.setTransmitter t).tp = { s.tp with transmitter := t } := rfl

@[simp] theorem State.setTransmitter_ru (t : Transmitter) :
    (s.setTransmitter t).ru = s.ru := rfl

@[simp] theorem State.setTransmitter_lc (t : Transmitter) :
    (s.setTransmitter t).lc = s.lc := rfl

@[simp] theorem State.setTransmitter_fp (t : Transmitter) :
    (s.setTransmitter t).fp = s.fp := rfl

@[simp] theorem State.setTransmitter_counters (t : Transmitter) :
    (s.setTransmitter t).counters = s.counters := rfl

@[simp] theorem State.setTransmitter_pending (t : Transmitter) :
    (s.setTransmitter t).pending = s.pending := rfl

@[simp] theorem State.setTransmitter_freeCount (t : Transmitter) :
    (s.setTransmitter t).freeCount = s.freeCount := rfl

/-! ### setFp -/

@[simp] theorem State.setFp_powered (fp : FieldPort) :
    (s.setFp fp).powered = s.powered := rfl

@[simp] theorem State.setFp_retentionValid (fp : FieldPort) :
    (s.setFp fp).retentionValid = s.retentionValid := rfl

@[simp] theorem State.setFp_ret (fp : FieldPort) :
    (s.setFp fp).ret = s.ret := rfl

@[simp] theorem State.setFp_tp (fp : FieldPort) :
    (s.setFp fp).tp = s.tp := rfl

@[simp] theorem State.setFp_ru (fp : FieldPort) :
    (s.setFp fp).ru = s.ru := rfl

@[simp] theorem State.setFp_lc (fp : FieldPort) :
    (s.setFp fp).lc = s.lc := rfl

@[simp] theorem State.setFp_fp (fp : FieldPort) :
    (s.setFp fp).fp = fp := rfl

@[simp] theorem State.setFp_counters (fp : FieldPort) :
    (s.setFp fp).counters = s.counters := rfl

@[simp] theorem State.setFp_pending (fp : FieldPort) :
    (s.setFp fp).pending = s.pending := rfl

@[simp] theorem State.setFp_freeCount (fp : FieldPort) :
    (s.setFp fp).freeCount = s.freeCount := rfl

/-! ### evalMode -/

@[simp] theorem State.evalMode_powered :
    (s.evalMode).powered = s.powered := rfl

@[simp] theorem State.evalMode_retentionValid :
    (s.evalMode).retentionValid = s.retentionValid := rfl

@[simp] theorem State.evalMode_ret :
    (s.evalMode).ret = s.ret := rfl

@[simp] theorem State.evalMode_tp :
    (s.evalMode).tp = s.tp := rfl

@[simp] theorem State.evalMode_ru :
    (s.evalMode).ru = s.ru := rfl

@[simp] theorem State.evalMode_lc :
    (s.evalMode).lc = s.lc := rfl

@[simp] theorem State.evalMode_fp :
    (s.evalMode).fp = { s.fp with effective := effectiveMode s.fp.idInEffect s.ru.escalated s.ret.requested } := rfl

@[simp] theorem State.evalMode_counters :
    (s.evalMode).counters = s.counters := rfl

@[simp] theorem State.evalMode_pending :
    (s.evalMode).pending = s.pending := rfl

@[simp] theorem State.evalMode_freeCount :
    (s.evalMode).freeCount = s.freeCount := rfl

/-! ### noteQuiet -/

@[simp] theorem State.noteQuiet_powered :
    (s.noteQuiet).powered = s.powered := rfl

@[simp] theorem State.noteQuiet_retentionValid :
    (s.noteQuiet).retentionValid = s.retentionValid := rfl

@[simp] theorem State.noteQuiet_ret :
    (s.noteQuiet).ret = s.ret := rfl

@[simp] theorem State.noteQuiet_tp :
    (s.noteQuiet).tp = s.tp := rfl

@[simp] theorem State.noteQuiet_ru :
    (s.noteQuiet).ru = s.ru := rfl

@[simp] theorem State.noteQuiet_lc :
    (s.noteQuiet).lc = s.lc := rfl

@[simp] theorem State.noteQuiet_fp :
    (s.noteQuiet).fp =
      { s.fp with quieted := s.fp.quieted || (s.fp.status == .claimed && s.fp.effective == .quiet) } := rfl

@[simp] theorem State.noteQuiet_counters :
    (s.noteQuiet).counters = s.counters := rfl

@[simp] theorem State.noteQuiet_pending :
    (s.noteQuiet).pending = s.pending := rfl

@[simp] theorem State.noteQuiet_freeCount :
    (s.noteQuiet).freeCount = s.freeCount := rfl

/-! ### withPending -/

@[simp] theorem State.withPending_powered (q : List Instr) :
    (s.withPending q).powered = s.powered := rfl

@[simp] theorem State.withPending_retentionValid (q : List Instr) :
    (s.withPending q).retentionValid = s.retentionValid := rfl

@[simp] theorem State.withPending_ret (q : List Instr) :
    (s.withPending q).ret = s.ret := rfl

@[simp] theorem State.withPending_tp (q : List Instr) :
    (s.withPending q).tp = s.tp := rfl

@[simp] theorem State.withPending_ru (q : List Instr) :
    (s.withPending q).ru = s.ru := rfl

@[simp] theorem State.withPending_lc (q : List Instr) :
    (s.withPending q).lc = s.lc := rfl

@[simp] theorem State.withPending_fp (q : List Instr) :
    (s.withPending q).fp = s.fp := rfl

@[simp] theorem State.withPending_counters (q : List Instr) :
    (s.withPending q).counters = s.counters := rfl

@[simp] theorem State.withPending_pending (q : List Instr) :
    (s.withPending q).pending = q := rfl

@[simp] theorem State.withPending_freeCount (q : List Instr) :
    (s.withPending q).freeCount = s.freeCount := rfl

end Sys2Proof.Machine
end

