-- ==== Sys2Proof/Laws/Reports.lean ====
section
/-!
SUPPORT. The Report Unit's operations: each touches the Report Unit alone, and keeps its bounds.
-/

namespace Sys2Proof.Machine

/-- Two states that differ in the Report Unit at most. -/
def SameButReports (s t : State) : Prop := t = { s with ru := t.ru }

theorem SameButReports.refl (s : State) : SameButReports s s := rfl

theorem SameButReports.trans {s t u : State} (h : SameButReports s t) (k : SameButReports t u) : SameButReports s u := by
  unfold SameButReports at *; rw [k, h]

theorem sameButReports_enqueue (s : State) (r : Report) : SameButReports s (s.enqueue r) := rfl

theorem sameButReports_tally (s : State) (g : TallyGroup) : SameButReports s (s.tally g) := rfl

theorem sameButReports_setAlarm (s : State) (c : AlarmCause) : SameButReports s (s.setAlarm c) := rfl

theorem sameButReports_raiseReportLoss (s : State) : SameButReports s s.raiseReportLoss := by
  unfold State.raiseReportLoss
  split
  · rfl
  · dsimp only; split
    · split <;> rfl
    · rfl

theorem sameButReports_lose (s : State) (g : TallyGroup) : SameButReports s (s.lose g) :=
  (sameButReports_tally s g).trans (sameButReports_raiseReportLoss _)

theorem sameButReports_handPlain (s : State) (r : Report) : SameButReports s (s.handPlain r) := by
  unfold State.handPlain
  split
  · rfl
  · exact sameButReports_lose s _

theorem sameButReports_raise (s : State) (c : AlarmCause) : SameButReports s (s.raise c) := by
  unfold State.raise
  split
  · rfl
  · dsimp only; split
    · exact (sameButReports_setAlarm s c).trans (sameButReports_handPlain _ _)
    · rfl

theorem sameButReports_handQuarantine (s : State) (r : Report) : SameButReports s (s.handQuarantine r) := by
  unfold State.handQuarantine
  split
  · exact (sameButReports_enqueue s r).trans (sameButReports_raise _ _)
  · split
    · exact SameButReports.trans (t := { s with ru := { s.ru with holder := some r } }) rfl (sameButReports_raise _ _)
    · dsimp only
      refine SameButReports.trans ?_ (sameButReports_raise _ _)
      refine SameButReports.trans (t := ((s.tally .other).raise .quarantine).raiseReportLoss) ?_ rfl
      exact ((sameButReports_tally s _).trans (sameButReports_raise _ _)).trans (sameButReports_raiseReportLoss _)

theorem sameButReports_hand (s : State) (r : Report) : SameButReports s (s.hand r) := by
  unfold State.hand
  split
  · exact sameButReports_handQuarantine s r
  all_goals exact sameButReports_handPlain s r

theorem sameButReports_handAll (s : State) (rs : List Report) : SameButReports s (s.handAll rs) := by
  unfold State.handAll
  induction rs generalizing s with
  | nil => exact .refl s
  | cons r rs ih => exact (sameButReports_hand s r).trans (ih _)

theorem sameButReports_handReceipt (s : State) (m : ReportMode) (tag slot : Nat) (r : ReceiptBody) :
    SameButReports s (s.handReceipt m tag slot r) := by
  cases m
  · exact sameButReports_hand s ⟨tag, slot, .receipt r⟩
  · exact .refl s
  · exact .refl s

theorem sameButReports_handRefusal (s : State) (m : ReportMode) (r : Report) :
    SameButReports s (s.handRefusal m r) := by
  cases m
  · exact sameButReports_hand s r
  · exact sameButReports_hand s r
  · exact .refl s

@[simp] theorem State.raiseReportLoss_powered (s : State) : (s.raiseReportLoss ).powered = s.powered := by
  rw [sameButReports_raiseReportLoss s ]

@[simp] theorem State.raiseReportLoss_retentionValid (s : State) : (s.raiseReportLoss ).retentionValid = s.retentionValid := by
  rw [sameButReports_raiseReportLoss s ]

@[simp] theorem State.raiseReportLoss_ret (s : State) : (s.raiseReportLoss ).ret = s.ret := by
  rw [sameButReports_raiseReportLoss s ]

@[simp] theorem State.raiseReportLoss_tp (s : State) : (s.raiseReportLoss ).tp = s.tp := by
  rw [sameButReports_raiseReportLoss s ]

@[simp] theorem State.raiseReportLoss_lc (s : State) : (s.raiseReportLoss ).lc = s.lc := by
  rw [sameButReports_raiseReportLoss s ]

@[simp] theorem State.raiseReportLoss_fp (s : State) : (s.raiseReportLoss ).fp = s.fp := by
  rw [sameButReports_raiseReportLoss s ]

@[simp] theorem State.raiseReportLoss_counters (s : State) : (s.raiseReportLoss ).counters = s.counters := by
  rw [sameButReports_raiseReportLoss s ]

@[simp] theorem State.raiseReportLoss_pending (s : State) : (s.raiseReportLoss ).pending = s.pending := by
  rw [sameButReports_raiseReportLoss s ]

@[simp] theorem State.raiseReportLoss_freeCount (s : State) : (s.raiseReportLoss ).freeCount = s.freeCount := by
  rw [sameButReports_raiseReportLoss s ]

@[simp] theorem State.lose_powered (s : State) (g : TallyGroup) : (s.lose g).powered = s.powered := by
  rw [sameButReports_lose s g]

@[simp] theorem State.lose_retentionValid (s : State) (g : TallyGroup) : (s.lose g).retentionValid = s.retentionValid := by
  rw [sameButReports_lose s g]

@[simp] theorem State.lose_ret (s : State) (g : TallyGroup) : (s.lose g).ret = s.ret := by
  rw [sameButReports_lose s g]

@[simp] theorem State.lose_tp (s : State) (g : TallyGroup) : (s.lose g).tp = s.tp := by
  rw [sameButReports_lose s g]

@[simp] theorem State.lose_lc (s : State) (g : TallyGroup) : (s.lose g).lc = s.lc := by
  rw [sameButReports_lose s g]

@[simp] theorem State.lose_fp (s : State) (g : TallyGroup) : (s.lose g).fp = s.fp := by
  rw [sameButReports_lose s g]

@[simp] theorem State.lose_counters (s : State) (g : TallyGroup) : (s.lose g).counters = s.counters := by
  rw [sameButReports_lose s g]

@[simp] theorem State.lose_pending (s : State) (g : TallyGroup) : (s.lose g).pending = s.pending := by
  rw [sameButReports_lose s g]

@[simp] theorem State.lose_freeCount (s : State) (g : TallyGroup) : (s.lose g).freeCount = s.freeCount := by
  rw [sameButReports_lose s g]

@[simp] theorem State.handPlain_powered (s : State) (r : Report) : (s.handPlain r).powered = s.powered := by
  rw [sameButReports_handPlain s r]

@[simp] theorem State.handPlain_retentionValid (s : State) (r : Report) : (s.handPlain r).retentionValid = s.retentionValid := by
  rw [sameButReports_handPlain s r]

@[simp] theorem State.handPlain_ret (s : State) (r : Report) : (s.handPlain r).ret = s.ret := by
  rw [sameButReports_handPlain s r]

@[simp] theorem State.handPlain_tp (s : State) (r : Report) : (s.handPlain r).tp = s.tp := by
  rw [sameButReports_handPlain s r]

@[simp] theorem State.handPlain_lc (s : State) (r : Report) : (s.handPlain r).lc = s.lc := by
  rw [sameButReports_handPlain s r]

@[simp] theorem State.handPlain_fp (s : State) (r : Report) : (s.handPlain r).fp = s.fp := by
  rw [sameButReports_handPlain s r]

@[simp] theorem State.handPlain_counters (s : State) (r : Report) : (s.handPlain r).counters = s.counters := by
  rw [sameButReports_handPlain s r]

@[simp] theorem State.handPlain_pending (s : State) (r : Report) : (s.handPlain r).pending = s.pending := by
  rw [sameButReports_handPlain s r]

@[simp] theorem State.handPlain_freeCount (s : State) (r : Report) : (s.handPlain r).freeCount = s.freeCount := by
  rw [sameButReports_handPlain s r]

@[simp] theorem State.raise_powered (s : State) (c : AlarmCause) : (s.raise c).powered = s.powered := by
  rw [sameButReports_raise s c]

@[simp] theorem State.raise_retentionValid (s : State) (c : AlarmCause) : (s.raise c).retentionValid = s.retentionValid := by
  rw [sameButReports_raise s c]

@[simp] theorem State.raise_ret (s : State) (c : AlarmCause) : (s.raise c).ret = s.ret := by
  rw [sameButReports_raise s c]

@[simp] theorem State.raise_tp (s : State) (c : AlarmCause) : (s.raise c).tp = s.tp := by
  rw [sameButReports_raise s c]

@[simp] theorem State.raise_lc (s : State) (c : AlarmCause) : (s.raise c).lc = s.lc := by
  rw [sameButReports_raise s c]

@[simp] theorem State.raise_fp (s : State) (c : AlarmCause) : (s.raise c).fp = s.fp := by
  rw [sameButReports_raise s c]

@[simp] theorem State.raise_counters (s : State) (c : AlarmCause) : (s.raise c).counters = s.counters := by
  rw [sameButReports_raise s c]

@[simp] theorem State.raise_pending (s : State) (c : AlarmCause) : (s.raise c).pending = s.pending := by
  rw [sameButReports_raise s c]

@[simp] theorem State.raise_freeCount (s : State) (c : AlarmCause) : (s.raise c).freeCount = s.freeCount := by
  rw [sameButReports_raise s c]

@[simp] theorem State.handQuarantine_powered (s : State) (r : Report) : (s.handQuarantine r).powered = s.powered := by
  rw [sameButReports_handQuarantine s r]

@[simp] theorem State.handQuarantine_retentionValid (s : State) (r : Report) : (s.handQuarantine r).retentionValid = s.retentionValid := by
  rw [sameButReports_handQuarantine s r]

@[simp] theorem State.handQuarantine_ret (s : State) (r : Report) : (s.handQuarantine r).ret = s.ret := by
  rw [sameButReports_handQuarantine s r]

@[simp] theorem State.handQuarantine_tp (s : State) (r : Report) : (s.handQuarantine r).tp = s.tp := by
  rw [sameButReports_handQuarantine s r]

@[simp] theorem State.handQuarantine_lc (s : State) (r : Report) : (s.handQuarantine r).lc = s.lc := by
  rw [sameButReports_handQuarantine s r]

@[simp] theorem State.handQuarantine_fp (s : State) (r : Report) : (s.handQuarantine r).fp = s.fp := by
  rw [sameButReports_handQuarantine s r]

@[simp] theorem State.handQuarantine_counters (s : State) (r : Report) : (s.handQuarantine r).counters = s.counters := by
  rw [sameButReports_handQuarantine s r]

@[simp] theorem State.handQuarantine_pending (s : State) (r : Report) : (s.handQuarantine r).pending = s.pending := by
  rw [sameButReports_handQuarantine s r]

@[simp] theorem State.handQuarantine_freeCount (s : State) (r : Report) : (s.handQuarantine r).freeCount = s.freeCount := by
  rw [sameButReports_handQuarantine s r]

@[simp] theorem State.hand_powered (s : State) (r : Report) : (s.hand r).powered = s.powered := by
  rw [sameButReports_hand s r]

@[simp] theorem State.hand_retentionValid (s : State) (r : Report) : (s.hand r).retentionValid = s.retentionValid := by
  rw [sameButReports_hand s r]

@[simp] theorem State.hand_ret (s : State) (r : Report) : (s.hand r).ret = s.ret := by
  rw [sameButReports_hand s r]

@[simp] theorem State.hand_tp (s : State) (r : Report) : (s.hand r).tp = s.tp := by
  rw [sameButReports_hand s r]

@[simp] theorem State.hand_lc (s : State) (r : Report) : (s.hand r).lc = s.lc := by
  rw [sameButReports_hand s r]

@[simp] theorem State.hand_fp (s : State) (r : Report) : (s.hand r).fp = s.fp := by
  rw [sameButReports_hand s r]

@[simp] theorem State.hand_counters (s : State) (r : Report) : (s.hand r).counters = s.counters := by
  rw [sameButReports_hand s r]

@[simp] theorem State.hand_pending (s : State) (r : Report) : (s.hand r).pending = s.pending := by
  rw [sameButReports_hand s r]

@[simp] theorem State.hand_freeCount (s : State) (r : Report) : (s.hand r).freeCount = s.freeCount := by
  rw [sameButReports_hand s r]

@[simp] theorem State.handAll_powered (s : State) (rs : List Report) : (s.handAll rs).powered = s.powered := by
  rw [sameButReports_handAll s rs]

@[simp] theorem State.handAll_retentionValid (s : State) (rs : List Report) : (s.handAll rs).retentionValid = s.retentionValid := by
  rw [sameButReports_handAll s rs]

@[simp] theorem State.handAll_ret (s : State) (rs : List Report) : (s.handAll rs).ret = s.ret := by
  rw [sameButReports_handAll s rs]

@[simp] theorem State.handAll_tp (s : State) (rs : List Report) : (s.handAll rs).tp = s.tp := by
  rw [sameButReports_handAll s rs]

@[simp] theorem State.handAll_lc (s : State) (rs : List Report) : (s.handAll rs).lc = s.lc := by
  rw [sameButReports_handAll s rs]

@[simp] theorem State.handAll_fp (s : State) (rs : List Report) : (s.handAll rs).fp = s.fp := by
  rw [sameButReports_handAll s rs]

@[simp] theorem State.handAll_counters (s : State) (rs : List Report) : (s.handAll rs).counters = s.counters := by
  rw [sameButReports_handAll s rs]

@[simp] theorem State.handAll_pending (s : State) (rs : List Report) : (s.handAll rs).pending = s.pending := by
  rw [sameButReports_handAll s rs]

@[simp] theorem State.handAll_freeCount (s : State) (rs : List Report) : (s.handAll rs).freeCount = s.freeCount := by
  rw [sameButReports_handAll s rs]

@[simp] theorem State.handReceipt_powered (s : State) (m : ReportMode) (tag slot : Nat) (r : ReceiptBody) : (s.handReceipt m tag slot r).powered = s.powered := by
  rw [sameButReports_handReceipt s m tag slot r]

@[simp] theorem State.handReceipt_retentionValid (s : State) (m : ReportMode) (tag slot : Nat) (r : ReceiptBody) : (s.handReceipt m tag slot r).retentionValid = s.retentionValid := by
  rw [sameButReports_handReceipt s m tag slot r]

@[simp] theorem State.handReceipt_ret (s : State) (m : ReportMode) (tag slot : Nat) (r : ReceiptBody) : (s.handReceipt m tag slot r).ret = s.ret := by
  rw [sameButReports_handReceipt s m tag slot r]

@[simp] theorem State.handReceipt_tp (s : State) (m : ReportMode) (tag slot : Nat) (r : ReceiptBody) : (s.handReceipt m tag slot r).tp = s.tp := by
  rw [sameButReports_handReceipt s m tag slot r]

@[simp] theorem State.handReceipt_lc (s : State) (m : ReportMode) (tag slot : Nat) (r : ReceiptBody) : (s.handReceipt m tag slot r).lc = s.lc := by
  rw [sameButReports_handReceipt s m tag slot r]

@[simp] theorem State.handReceipt_fp (s : State) (m : ReportMode) (tag slot : Nat) (r : ReceiptBody) : (s.handReceipt m tag slot r).fp = s.fp := by
  rw [sameButReports_handReceipt s m tag slot r]

@[simp] theorem State.handReceipt_counters (s : State) (m : ReportMode) (tag slot : Nat) (r : ReceiptBody) : (s.handReceipt m tag slot r).counters = s.counters := by
  rw [sameButReports_handReceipt s m tag slot r]

@[simp] theorem State.handReceipt_pending (s : State) (m : ReportMode) (tag slot : Nat) (r : ReceiptBody) : (s.handReceipt m tag slot r).pending = s.pending := by
  rw [sameButReports_handReceipt s m tag slot r]

@[simp] theorem State.handReceipt_freeCount (s : State) (m : ReportMode) (tag slot : Nat) (r : ReceiptBody) : (s.handReceipt m tag slot r).freeCount = s.freeCount := by
  rw [sameButReports_handReceipt s m tag slot r]

@[simp] theorem State.handRefusal_powered (s : State) (m : ReportMode) (r : Report) : (s.handRefusal m r).powered = s.powered := by
  rw [sameButReports_handRefusal s m r]

@[simp] theorem State.handRefusal_retentionValid (s : State) (m : ReportMode) (r : Report) : (s.handRefusal m r).retentionValid = s.retentionValid := by
  rw [sameButReports_handRefusal s m r]

@[simp] theorem State.handRefusal_ret (s : State) (m : ReportMode) (r : Report) : (s.handRefusal m r).ret = s.ret := by
  rw [sameButReports_handRefusal s m r]

@[simp] theorem State.handRefusal_tp (s : State) (m : ReportMode) (r : Report) : (s.handRefusal m r).tp = s.tp := by
  rw [sameButReports_handRefusal s m r]

@[simp] theorem State.handRefusal_lc (s : State) (m : ReportMode) (r : Report) : (s.handRefusal m r).lc = s.lc := by
  rw [sameButReports_handRefusal s m r]

@[simp] theorem State.handRefusal_fp (s : State) (m : ReportMode) (r : Report) : (s.handRefusal m r).fp = s.fp := by
  rw [sameButReports_handRefusal s m r]

@[simp] theorem State.handRefusal_counters (s : State) (m : ReportMode) (r : Report) : (s.handRefusal m r).counters = s.counters := by
  rw [sameButReports_handRefusal s m r]

@[simp] theorem State.handRefusal_pending (s : State) (m : ReportMode) (r : Report) : (s.handRefusal m r).pending = s.pending := by
  rw [sameButReports_handRefusal s m r]

@[simp] theorem State.handRefusal_freeCount (s : State) (m : ReportMode) (r : Report) : (s.handRefusal m r).freeCount = s.freeCount := by
  rw [sameButReports_handRefusal s m r]

end Sys2Proof.Machine
end

