-- ==== Sys2Proof/Laws/Tables.lean ====
section
/-!
SUPPORT. Reading the tables after a write: the entry written holds what was written, every other entry what it held.
-/

namespace Sys2Proof.Machine

theorem slotPos_lt {k : Nat} : slotPos k < 384 ↔ 1 ≤ k ∧ k ≤ 384 := by
  unfold slotPos; split <;> omega

theorem slotPos_inj {j k : Nat} (hk : 1 ≤ k ∧ k ≤ 384) : slotPos j = slotPos k ↔ j = k := by
  unfold slotPos; split <;> split <;> omega

theorem account_range {s : State} {k : Nat} {a : Account} (h : s.account k = some a) : 1 ≤ k ∧ k ≤ 384 := by
  rw [← slotPos_lt]
  by_contra hn
  unfold State.account at h
  rw [Vector.getElem?_eq_none (by omega)] at h
  simp at h

theorem account_out {s : State} {k : Nat} (h : ¬ (1 ≤ k ∧ k ≤ 384)) : s.account k = none := by
  cases hk : s.account k with
  | none => rfl
  | some a => exact absurd (account_range hk) h

theorem account_setAccount (s : State) (k j : Nat) (a : Option Account) :
    (s.setAccount k a).account j = if j = k ∧ 1 ≤ k ∧ k ≤ 384 then a else s.account j := by
  unfold State.account
  rw [State.setAccount_ret_accounts, Vector.getElem?_setIfInBounds]
  by_cases hk : 1 ≤ k ∧ k ≤ 384
  · have hp : slotPos k < 384 := slotPos_lt.2 hk
    by_cases hj : j = k
    · subst hj; simp [hk, hp]
    · have : slotPos k ≠ slotPos j := fun h => hj ((slotPos_inj hk).1 h.symm)
      simp [this, hj]
  · have hp : ¬ slotPos k < 384 := fun h => hk (slotPos_lt.1 h)
    have hk' : ¬ (j = k ∧ 1 ≤ k ∧ k ≤ 384) := fun h => hk h.2
    rw [if_neg hk']
    split
    · next h =>
      rw [Vector.getElem?_eq_none (by omega)]
    · rfl

theorem account_setAccount_self {s : State} {k : Nat} {b : Account} (h : s.account k = some b) (x : Option Account) :
    (s.setAccount k x).account k = x := by
  rw [account_setAccount, if_pos ⟨rfl, account_range h⟩]

/-- The account table alone decides what an account reads as. -/
theorem account_congr {s t : State} (h : t.ret.accounts = s.ret.accounts) (k : Nat) : t.account k = s.account k := by
  unfold State.account; rw [h]

theorem plan_congr {s t : State} (h : t.ret.plans = s.ret.plans) (n : Nat) : t.plan n = s.plan n := by
  unfold State.plan; rw [h]

theorem entry_congr {s t : State} (h : t.ret.entries = s.ret.entries) (n : Nat) : t.entry n = s.entry n := by
  unfold State.entry; rw [h]

theorem link_congr {s t : State} (h : t.ret.links = s.ret.links) (n : Nat) : t.link n = s.link n := by
  unfold State.link; rw [h]

theorem linkVol_congr {s t : State} (h : t.lc.links = s.lc.links) (n : Nat) : t.linkVol n = s.linkVol n := by
  unfold State.linkVol; rw [h]

theorem plan_setPlan (s : State) (n m : Nat) (p : Option Plan) :
    (s.setPlan n p).plan m = if m = n ∧ n < 16 then p else s.plan m := by
  unfold State.plan
  rw [State.setPlan_ret_plans, Vector.getElem?_setIfInBounds]
  by_cases h : n = m
  · subst h
    by_cases hn : n < 16
    · simp [hn]
    · simp [hn]
  · have : ¬ (m = n ∧ n < 16) := fun k => h k.1.symm
    simp [h, this]

theorem plan_range {s : State} {n : Nat} {p : Plan} (h : s.plan n = some p) : n < 16 := by
  by_contra hn
  unfold State.plan at h
  rw [Vector.getElem?_eq_none (by omega)] at h
  simp at h

theorem plan_mapUseCount (s : State) (n m : Nat) (f : Nat → Nat) :
    (s.mapUseCount n f).plan m =
      if m = n then (s.plan m).map (fun p => { p with useCount := f p.useCount }) else s.plan m := by
  unfold State.mapUseCount
  rw [plan_setPlan]
  by_cases h : m = n
  · subst h
    by_cases hm : m < 16
    · simp [hm]
    · have : s.plan m = none := by
        cases hp : s.plan m with
        | none => rfl
        | some p => exact absurd (plan_range hp) hm
      simp [hm, this]
  · simp [h]

theorem entry_setEntry (s : State) (n m : Nat) (e : Option Entry) :
    (s.setEntry n e).entry m = if m = n ∧ n < 64 then e else s.entry m := by
  unfold State.entry
  rw [State.setEntry_ret_entries, Vector.getElem?_setIfInBounds]
  by_cases h : n = m
  · subst h
    by_cases hn : n < 64
    · simp [hn]
    · simp [hn]
  · have : ¬ (m = n ∧ n < 64) := fun k => h k.1.symm
    simp [h, this]

theorem link_setLink (s : State) (k j : Nat) (l : LinkRetained) :
    (s.setLink k l).link j = if j = k ∧ 1 ≤ k ∧ k ≤ 384 then l else s.link j := by
  unfold State.link
  rw [State.setLink_ret_links, Vector.getElem?_setIfInBounds]
  by_cases hk : 1 ≤ k ∧ k ≤ 384
  · have hp : slotPos k < 384 := slotPos_lt.2 hk
    by_cases hj : j = k
    · subst hj; simp [hk, hp]
    · have : slotPos k ≠ slotPos j := fun h => hj ((slotPos_inj hk).1 h.symm)
      simp [this, hj]
  · have hp : ¬ slotPos k < 384 := fun h => hk (slotPos_lt.1 h)
    have hk' : ¬ (j = k ∧ 1 ≤ k ∧ k ≤ 384) := fun h => hk h.2
    rw [if_neg hk']
    split
    · next h => rw [Vector.getElem?_eq_none (by omega)]
    · rfl

theorem link_mapLink (s : State) (k j : Nat) (f : LinkRetained → LinkRetained) :
    (s.mapLink k f).link j = if j = k ∧ 1 ≤ k ∧ k ≤ 384 then f (s.link k) else s.link j := link_setLink s k j _

theorem linkVol_setLinkVol (s : State) (k j : Nat) (v : LinkVolatile) :
    (s.setLinkVol k v).linkVol j = if j = k ∧ 1 ≤ k ∧ k ≤ 384 then v else s.linkVol j := by
  unfold State.linkVol
  rw [show (s.setLinkVol k v).lc.links = s.lc.links.setIfInBounds (slotPos k) v from rfl, Vector.getElem?_setIfInBounds]
  by_cases hk : 1 ≤ k ∧ k ≤ 384
  · have hp : slotPos k < 384 := slotPos_lt.2 hk
    by_cases hj : j = k
    · subst hj; simp [hk, hp]
    · have : slotPos k ≠ slotPos j := fun h => hj ((slotPos_inj hk).1 h.symm)
      simp [this, hj]
  · have hp : ¬ slotPos k < 384 := fun h => hk (slotPos_lt.1 h)
    have hk' : ¬ (j = k ∧ 1 ≤ k ∧ k ≤ 384) := fun h => hk h.2
    rw [if_neg hk']
    split
    · next h => rw [Vector.getElem?_eq_none (by omega)]
    · rfl

theorem linkVol_mapLinkVol (s : State) (k j : Nat) (f : LinkVolatile → LinkVolatile) :
    (s.mapLinkVol k f).linkVol j = if j = k ∧ 1 ≤ k ∧ k ≤ 384 then f (s.linkVol k) else s.linkVol j :=
  linkVol_setLinkVol s k j _

/-- The slot a kit id is found at holds an account with that id (R134). -/
theorem slotOfKit_some {s : State} {kitId slot : Nat} (h : s.slotOfKit kitId = some slot) :
    ∃ a, s.account slot = some a ∧ a.kitId = kitId := by
  have := List.find?_some h
  cases hs : s.account slot with
  | none => simp [hs] at this
  | some a => exact ⟨a, rfl, by simpa [hs] using this⟩

/-- A kit id that no slot holds is no account's (R2, R14). -/
theorem slotOfKit_none {s : State} {kitId : Nat} (h : s.slotOfKit kitId = none) {slot : Nat} {a : Account}
    (ha : s.account slot = some a) : a.kitId ≠ kitId := by
  have hr := account_range ha
  have := List.find?_eq_none.1 h slot (by simp [slotIndices, List.mem_range'_1]; omega)
  simpa [ha] using this

end Sys2Proof.Machine
end

