-- ==== Sys2Proof/Laws/ReportBounds.lean ====
section
/-!
SUPPORT. The Report Unit keeps its bounds whatever is handed to it (R165, R168, R169).
-/

namespace Sys2Proof.Machine

theorem reportsBounded_congr {s t : State} (h : t.ru = s.ru) (hs : s.ReportsBounded) : t.ReportsBounded := by
  unfold State.ReportsBounded at *; rw [h]; exact hs

theorem reportsBounded_enqueue {s : State} (r : Report) (hs : s.ReportsBounded) (hf : 1 ≤ s.free) :
    (s.enqueue r).ReportsBounded := by
  unfold State.ReportsBounded State.free at *
  refine ⟨?_, hs.2⟩
  simp
  omega

theorem reportsBounded_tally {s : State} (g : TallyGroup) (hs : s.ReportsBounded) : (s.tally g).ReportsBounded := by
  unfold State.ReportsBounded at *
  refine ⟨hs.1, hs.2.1, ?_⟩
  cases g <;> simp [Tallies.bump, satInc] <;> omega

theorem reportsBounded_setAlarm {s : State} (c : AlarmCause) (hs : s.ReportsBounded) : (s.setAlarm c).ReportsBounded := hs

theorem reportsBounded_raiseReportLoss {s : State} (hs : s.ReportsBounded) : s.raiseReportLoss.ReportsBounded := by
  unfold State.raiseReportLoss
  split
  · exact hs
  · dsimp only; split
    · split
      · exact reportsBounded_enqueue _ (reportsBounded_setAlarm _ hs) (by omega)
      · exact reportsBounded_tally _ (reportsBounded_setAlarm _ hs)
    · exact reportsBounded_setAlarm _ hs

theorem reportsBounded_lose {s : State} (g : TallyGroup) (hs : s.ReportsBounded) : (s.lose g).ReportsBounded :=
  reportsBounded_raiseReportLoss (reportsBounded_tally g hs)

theorem reportsBounded_handPlain {s : State} (r : Report) (hs : s.ReportsBounded) : (s.handPlain r).ReportsBounded := by
  unfold State.handPlain
  split
  · next h =>
    refine reportsBounded_enqueue _ hs ?_
    unfold ReportClass.margin at h
    split at h <;> omega
  · exact reportsBounded_lose _ hs

theorem reportsBounded_raise {s : State} (c : AlarmCause) (hs : s.ReportsBounded) : (s.raise c).ReportsBounded := by
  unfold State.raise
  split
  · exact hs
  · dsimp only; split
    · exact reportsBounded_handPlain _ (reportsBounded_setAlarm _ hs)
    · exact reportsBounded_setAlarm _ hs

theorem reportsBounded_handQuarantine {s : State} (r : Report) (hr : r.body.reportClass = .quarantine)
    (hs : s.ReportsBounded) : (s.handQuarantine r).ReportsBounded := by
  unfold State.handQuarantine
  split
  · next h => exact reportsBounded_raise _ (reportsBounded_enqueue _ hs h)
  · split
    · refine reportsBounded_raise _ ?_
      exact ⟨hs.1, by simpa using hr, hs.2.2⟩
    · exact reportsBounded_raise _ (reportsBounded_congr (s := ((s.tally .other).raise .quarantine).raiseReportLoss) rfl
        (reportsBounded_raiseReportLoss (reportsBounded_raise _ (reportsBounded_tally _ hs))) : State.ReportsBounded
          { ((s.tally .other).raise .quarantine).raiseReportLoss with
            ru := ((s.tally .other).raise .quarantine).raiseReportLoss.ru })

theorem reportsBounded_hand {s : State} (r : Report) (hs : s.ReportsBounded) : (s.hand r).ReportsBounded := by
  unfold State.hand
  split
  · next h => exact reportsBounded_handQuarantine r h hs
  all_goals exact reportsBounded_handPlain r hs

theorem reportsBounded_handAll {s : State} (rs : List Report) (hs : s.ReportsBounded) : (s.handAll rs).ReportsBounded := by
  unfold State.handAll
  induction rs generalizing s with
  | nil => exact hs
  | cons r rs ih => exact ih (reportsBounded_hand r hs)

theorem reportsBounded_handReceipt {s : State} (m : ReportMode) (tag slot : Nat) (r : ReceiptBody) (hs : s.ReportsBounded) :
    (s.handReceipt m tag slot r).ReportsBounded := by
  cases m
  · exact reportsBounded_hand _ hs
  all_goals exact hs

theorem reportsBounded_handRefusal {s : State} (m : ReportMode) (r : Report) (hs : s.ReportsBounded) :
    (s.handRefusal m r).ReportsBounded := by
  cases m
  · exact reportsBounded_hand _ hs
  · exact reportsBounded_hand _ hs
  · exact hs

end Sys2Proof.Machine
end

