-- ==== Sys2Proof/Laws/Callers.lean ====
section
/-!
SUPPORT. The Caller Queue keeps its order and its bound (R135).
-/

namespace Sys2Proof.Machine

theorem callersOrdered_congr {s t : State} (h : t.lc.callers = s.lc.callers) (hn : t.lc.nextArrival = s.lc.nextArrival)
    (hs : s.CallersOrdered) : t.CallersOrdered := by
  unfold State.CallersOrdered at *; rw [h, hn]; exact hs

/-- A change of the callers that keeps what the order reads. -/
theorem callersOrdered_map {s t : State} (f : Caller → Caller)
    (hf : ∀ c, (f c).kitId = c.kitId ∧ (f c).arrival = c.arrival ∧ (f c).urgency = c.urgency)
    (h : t.lc.callers = s.lc.callers.map f) (hn : t.lc.nextArrival = s.lc.nextArrival) (hs : s.CallersOrdered) :
    t.CallersOrdered := by
  unfold State.CallersOrdered at *
  obtain ⟨h1, h2, h3, h4, h5⟩ := hs
  have hk : (Caller.kitId ∘ f) = Caller.kitId := funext fun c => (hf c).1
  have ha : (Caller.arrival ∘ f) = Caller.arrival := funext fun c => (hf c).2.1
  rw [h, hn]
  refine ⟨by simpa using h1, by simpa [List.map_map, hk] using h2, by simpa [List.map_map, ha] using h3, ?_, ?_⟩
  · rw [List.pairwise_map]
    refine h4.imp ?_
    intro a b hab
    simpa [Caller.before, hf] using hab
  · intro c hc
    obtain ⟨d, hd, rfl⟩ := List.mem_map.1 hc
    rw [(hf d).2.1]; exact h5 d hd

/-- Entries that leave the queue. -/
theorem callersOrdered_filter {s t : State} (p : Caller → Bool) (h : t.lc.callers = s.lc.callers.filter p)
    (hn : t.lc.nextArrival = s.lc.nextArrival) (hs : s.CallersOrdered) : t.CallersOrdered := by
  unfold State.CallersOrdered at *
  obtain ⟨h1, h2, h3, h4, h5⟩ := hs
  rw [h, hn]
  refine ⟨(List.length_filter_le _ _).trans h1, ?_, ?_, h4.sublist List.filter_sublist,
    fun c hc => h5 c (List.mem_of_mem_filter hc)⟩
  · exact h2.sublist (List.Sublist.map _ List.filter_sublist)
  · exact h3.sublist (List.Sublist.map _ List.filter_sublist)

theorem insertCaller_perm (c : Caller) (cs : List Caller) : (insertCaller c cs).Perm (c :: cs) := by
  induction cs with
  | nil => exact .refl _
  | cons d ds ih =>
    unfold insertCaller
    split
    · exact .refl _
    · exact (List.Perm.cons d ih).trans (List.Perm.swap c d ds)

theorem before_total {a b : Caller} (h : a.arrival ≠ b.arrival) (hab : ¬ a.before b = true) : b.before a = true := by
  simp [Caller.before] at *
  omega

theorem before_trans {a b c : Caller} (h : a.before b = true) (k : b.before c = true) : a.before c = true := by
  simp [Caller.before] at *
  omega

theorem insertCaller_pairwise {c : Caller} {cs : List Caller} (h : cs.Pairwise fun a b => a.before b = true)
    (hc : ∀ d ∈ cs, d.arrival ≠ c.arrival) : (insertCaller c cs).Pairwise fun a b => a.before b = true := by
  induction cs with
  | nil => simp [insertCaller]
  | cons d ds ih =>
    rw [List.pairwise_cons] at h
    unfold insertCaller
    split
    · next hb =>
      rw [List.pairwise_cons]
      refine ⟨?_, List.pairwise_cons.2 h⟩
      intro x hx
      rcases List.mem_cons.1 hx with rfl | hx
      · exact hb
      · exact before_trans hb (h.1 x hx)
    · next hb =>
      rw [List.pairwise_cons]
      refine ⟨?_, ih h.2 fun x hx => hc x (List.mem_cons_of_mem _ hx)⟩
      intro x hx
      rcases List.mem_cons.1 ((insertCaller_perm c ds).mem_iff.1 hx) with rfl | hx
      · exact before_total (fun e => hc d List.mem_cons_self e.symm) hb
      · exact h.1 x hx

/-- An entry placed in the queue by its order. -/
theorem callersOrdered_insert {s t : State} (c : Caller) (hs : s.CallersOrdered)
    (h : t.lc.callers = insertCaller c s.lc.callers) (hlen : s.lc.callers.length < 8)
    (hk : ∀ d ∈ s.lc.callers, d.kitId ≠ c.kitId) (ha : ∀ d ∈ s.lc.callers, d.arrival ≠ c.arrival)
    (hn : s.lc.nextArrival ≤ t.lc.nextArrival) (hc : c.arrival < t.lc.nextArrival) : t.CallersOrdered := by
  obtain ⟨h1, h2, h3, h4, h5⟩ := hs
  have hp := insertCaller_perm c s.lc.callers
  unfold State.CallersOrdered
  rw [h]
  refine ⟨?_, ?_, ?_, insertCaller_pairwise h4 ha, ?_⟩
  · rw [hp.length_eq]; simp; omega
  · rw [(hp.map _).nodup_iff, List.map_cons, List.nodup_cons]
    refine ⟨?_, h2⟩
    intro hm
    obtain ⟨d, hd, e⟩ := List.mem_map.1 hm
    exact hk d hd e
  · rw [(hp.map _).nodup_iff, List.map_cons, List.nodup_cons]
    refine ⟨?_, h3⟩
    intro hm
    obtain ⟨d, hd, e⟩ := List.mem_map.1 hm
    exact ha d hd e
  · intro d hd
    rcases List.mem_cons.1 (hp.mem_iff.1 hd) with rfl | hd
    · exact hc
    · have := h5 d hd; omega

end Sys2Proof.Machine
end

