-- ==== Sys2Proof/Laws/FieldSide.lean ====
section
/-!
SUPPORT. What an operation of the Link Controller and of the Credit Engine's field side can do to the state, said once
(`LinkEffect`) and shown for each operation.
-/

namespace Sys2Proof.Machine

/-- What the field side can make of an account record: the operations of 03 and 08. -/
inductive FieldChange : Account → Account → Prop where
  | refl (a : Account) : FieldChange a a
  | trans {a b c : Account} : FieldChange a b → FieldChange b c → FieldChange a c
  | expireRelay (a : Account) (slot : Nat) : FieldChange a (a.expireRelay slot).1
  | createGrant (a : Account) (p : Plan) (l : LinkRetained) (m : Mode) : FieldChange a (a.createGrant p l m)
  | countRelay (a : Account) : FieldChange a a.countRelay
  | keyed (a : Account) (g : Grant) : FieldChange a (a.keyed g)
  | reconcile (a : Account) (p : Plan) (slot : Nat) (r : KitReport) (i : InstructionSet) :
      FieldChange a (a.reconcile p slot r i).1
  | adopt (a : Account) (slot : Nat) (p1 : Page1) (e : KitEvents) : FieldChange a (a.adopt slot p1 e).1
  | bind (a : Account) : FieldChange a a.bind

/-- An account slot before and after. -/
def SlotChange (x y : Option Account) : Prop :=
  (x = none ∧ y = none) ∨ ∃ a b, x = some a ∧ y = some b ∧ FieldChange a b

theorem SlotChange.refl (x : Option Account) : SlotChange x x := by
  cases x with
  | none => exact .inl ⟨rfl, rfl⟩
  | some a => exact .inr ⟨a, a, rfl, rfl, .refl a⟩

theorem SlotChange.trans {x y z : Option Account} (h : SlotChange x y) (k : SlotChange y z) : SlotChange x z := by
  rcases h with ⟨rfl, rfl⟩ | ⟨a, b, rfl, rfl, h⟩
  · rcases k with ⟨-, rfl⟩ | ⟨a, b, h, -, -⟩
    · exact .inl ⟨rfl, rfl⟩
    · cases h
  · rcases k with ⟨h, -⟩ | ⟨b', c, hb, rfl, k⟩
    · cases h
    · cases hb; exact .inr ⟨a, c, rfl, rfl, h.trans k⟩

/-- What a field-side operation can do: it keeps the supplies, the Trunk Port, the queue of commands and every retained register but
accounts, calendar and links; it keeps the Field Port but for the frame handed over; each account changes by field changes; and the
bounds of the Report Unit, the Caller Queue and the counters hold on. -/
structure LinkEffect (s t : State) : Prop where
  powered : t.powered = s.powered
  retentionValid : t.retentionValid = s.retentionValid
  tp : t.tp = s.tp
  pending : t.pending = s.pending
  freeCount : t.freeCount = s.freeCount
  fp : t.fp = { s.fp with downlink := t.fp.downlink }
  ret : t.ret = { s.ret with accounts := t.ret.accounts, calendar := t.ret.calendar, links := t.ret.links }
  accounts : ∀ k, SlotChange (s.account k) (t.account k)
  reports : s.ReportsBounded → t.ReportsBounded
  callers : s.CallersOrdered → t.CallersOrdered
  counters : s.CountersBounded → t.CountersBounded

theorem LinkEffect.refl (s : State) : LinkEffect s s :=
  ⟨rfl, rfl, rfl, rfl, rfl, rfl, rfl, fun _ => .refl _, id, id, id⟩

theorem LinkEffect.trans {s t u : State} (h : LinkEffect s t) (k : LinkEffect t u) : LinkEffect s u where
  powered := k.powered.trans h.powered
  retentionValid := k.retentionValid.trans h.retentionValid
  tp := k.tp.trans h.tp
  pending := k.pending.trans h.pending
  freeCount := k.freeCount.trans h.freeCount
  fp := by rw [k.fp, h.fp]
  ret := by rw [k.ret, h.ret]
  accounts n := (h.accounts n).trans (k.accounts n)
  reports x := k.reports (h.reports x)
  callers x := k.callers (h.callers x)
  counters x := k.counters (h.counters x)

/-! ### The elementary operations -/

theorem countersBounded_congr {s t : State} (h : t.counters = s.counters) (hl : t.lc.links = s.lc.links)
    (hs : s.CountersBounded) : t.CountersBounded := by
  refine ⟨fun n => by rw [h]; exact hs.1 n, fun k => ?_⟩
  rw [linkVol_congr hl]; exact hs.2 k

theorem bump_get_le (c : NodeCounters) (n : CounterName) (h : ∀ m, c.get m ≤ 65535) (m : CounterName) :
    (c.bump n).get m ≤ 65535 := by
  have := h m
  cases n <;> cases m <;> simp [NodeCounters.bump, NodeCounters.get, satInc] at * <;> omega

theorem countersBounded_bump {s : State} (n : CounterName) (hs : s.CountersBounded) : (s.bump n).CountersBounded :=
  ⟨fun m => bump_get_le _ _ hs.1 m, fun k => hs.2 k⟩

theorem countersBounded_mapLinkVol {s : State} (k : Nat) (f : LinkVolatile → LinkVolatile)
    (hf : ∀ v, v.CountersBounded → (f v).CountersBounded) (hs : s.CountersBounded) :
    (s.mapLinkVol k f).CountersBounded := by
  refine ⟨hs.1, fun j => ?_⟩
  rw [linkVol_mapLinkVol]
  split
  · exact hf _ (hs.2 k)
  · exact hs.2 j

theorem linkEffect_hand (s : State) (r : Report) : LinkEffect s (s.hand r) where
  powered := by simp
  retentionValid := by simp
  tp := by simp
  pending := by simp
  freeCount := by simp
  fp := by simp
  ret := by simp
  accounts k := by rw [account_congr (s := s) (t := s.hand r) (by simp)]; exact .refl _
  reports := reportsBounded_hand r
  callers := callersOrdered_congr (by simp) (by simp)
  counters := countersBounded_congr (by simp) (by simp)

theorem linkEffect_raise (s : State) (c : AlarmCause) : LinkEffect s (s.raise c) where
  powered := by simp
  retentionValid := by simp
  tp := by simp
  pending := by simp
  freeCount := by simp
  fp := by simp
  ret := by simp
  accounts k := by rw [account_congr (s := s) (t := s.raise c) (by simp)]; exact .refl _
  reports := reportsBounded_raise c
  callers := callersOrdered_congr (by simp) (by simp)
  counters := countersBounded_congr (by simp) (by simp)

theorem linkEffect_handAll (s : State) (rs : List Report) : LinkEffect s (s.handAll rs) := by
  unfold State.handAll
  induction rs generalizing s with
  | nil => exact .refl s
  | cons r rs ih => exact (linkEffect_hand s r).trans (ih _)

theorem linkEffect_bump (s : State) (n : CounterName) : LinkEffect s (s.bump n) :=
  ⟨rfl, rfl, rfl, rfl, rfl, rfl, rfl, fun _ => .refl _, reportsBounded_congr rfl, callersOrdered_congr rfl rfl,
    countersBounded_bump n⟩

theorem linkEffect_fillCells (s : State) (p : Placement) (v : Option Nat) : LinkEffect s (s.fillCells p v) :=
  ⟨rfl, rfl, rfl, rfl, rfl, rfl, rfl, fun _ => .refl _, reportsBounded_congr rfl, callersOrdered_congr rfl rfl,
    countersBounded_congr rfl rfl⟩

theorem linkEffect_mapLink (s : State) (k : Nat) (f : LinkRetained → LinkRetained) : LinkEffect s (s.mapLink k f) :=
  ⟨rfl, rfl, rfl, rfl, rfl, rfl, rfl, fun _ => .refl _, reportsBounded_congr rfl, callersOrdered_congr rfl rfl,
    countersBounded_congr rfl rfl⟩

theorem linkEffect_mapLinkVol (s : State) (k : Nat) (f : LinkVolatile → LinkVolatile)
    (hf : ∀ v, v.CountersBounded → (f v).CountersBounded) : LinkEffect s (s.mapLinkVol k f) :=
  ⟨rfl, rfl, rfl, rfl, rfl, rfl, rfl, fun _ => .refl _, reportsBounded_congr rfl, callersOrdered_congr rfl rfl,
    countersBounded_mapLinkVol k f hf⟩

theorem linkEffect_mapCaller (s : State) (k : Nat) (f : Caller → Caller)
    (hf : ∀ c, (f c).kitId = c.kitId ∧ (f c).arrival = c.arrival ∧ (f c).urgency = c.urgency) :
    LinkEffect s (s.mapCaller k f) where
  powered := rfl
  retentionValid := rfl
  tp := rfl
  pending := rfl
  freeCount := rfl
  fp := rfl
  ret := rfl
  accounts _ := .refl _
  reports := reportsBounded_congr rfl
  callers := callersOrdered_map (fun c => if c.slot = k then f c else c) (fun c => by split <;> simp [hf]) rfl rfl
  counters := countersBounded_congr rfl rfl

theorem linkEffect_handDown (s : State) (f : DownFrame) (e : Exchange) : LinkEffect s (s.handDown f e) := by
  unfold State.handDown
  split
  · exact .refl s
  · exact ⟨rfl, rfl, rfl, rfl, rfl, rfl, rfl, fun _ => .refl _, reportsBounded_congr rfl, callersOrdered_congr rfl rfl,
      countersBounded_congr rfl rfl⟩

/-- The exchange record replaced. -/
theorem linkEffect_exchange (s : State) (e : Option Exchange) :
    LinkEffect s { s with lc := { s.lc with exchange := e } } :=
  ⟨rfl, rfl, rfl, rfl, rfl, rfl, rfl, fun _ => .refl _, reportsBounded_congr rfl, callersOrdered_congr rfl rfl,
    countersBounded_congr rfl rfl⟩

theorem linkEffect_setAccount {s : State} {k : Nat} {a b : Account} (h : s.account k = some a) (hc : FieldChange a b) :
    LinkEffect s (s.setAccount k (some b)) where
  powered := rfl
  retentionValid := rfl
  tp := rfl
  pending := rfl
  freeCount := rfl
  fp := rfl
  ret := rfl
  accounts j := by
    rw [account_setAccount]
    split
    · next hj => rw [hj.1, h]; exact .inr ⟨a, b, rfl, rfl, hc⟩
    · exact .refl _
  reports := reportsBounded_congr rfl
  callers := callersOrdered_congr rfl rfl
  counters := countersBounded_congr rfl rfl

/-! ### The operations of 07 to 09 -/

theorem linkEffect_release (s : State) (k : Nat) : LinkEffect s (s.release k) := by
  unfold State.release
  split
  · exact .refl s
  · exact (linkEffect_fillCells _ _ _).trans (linkEffect_mapLink _ _ _)

theorem linkEffect_leaveQueue (s : State) (k : Nat) : LinkEffect s (s.leaveQueue k) := by
  unfold State.leaveQueue
  refine LinkEffect.trans ?_ (linkEffect_mapLink _ _ _)
  refine LinkEffect.trans ?_ (linkEffect_mapLinkVol _ _ _ fun v h => h)
  exact ⟨rfl, rfl, rfl, rfl, rfl, rfl, rfl, fun _ => .refl _, reportsBounded_congr rfl,
    callersOrdered_filter (fun c => c.slot != k) rfl rfl, countersBounded_congr rfl rfl⟩

/-- A change of the volatile part that leaves the counters alone. -/
theorem linkEffect_volatile (s : State) (k : Nat) (f : LinkVolatile → LinkVolatile)
    (hf : ∀ v, (f v).goodFrames = v.goodFrames ∧ (f v).missedWakes = v.missedWakes ∧ (f v).failedFrames = v.failedFrames ∧
      (f v).correctedBlocks = v.correctedBlocks) : LinkEffect s (s.mapLinkVol k f) :=
  linkEffect_mapLinkVol s k f fun v h => by
    obtain ⟨h1, h2, h3, h4⟩ := hf v
    unfold LinkVolatile.CountersBounded at *; rw [h1, h2, h3, h4]; exact h

theorem linkEffect_dropFromWake (s : State) (k : Nat) : LinkEffect s (s.dropFromWake k) := by
  unfold State.dropFromWake
  split
  · exact linkEffect_exchange _ _
  · exact .refl s

theorem linkEffect_dropProbe (s : State) (k : Nat) : LinkEffect s (s.dropProbe k) := by
  unfold State.dropProbe
  split
  · exact .refl s
  · refine LinkEffect.trans ?_ (linkEffect_hand _ _)
    refine LinkEffect.trans ?_ (linkEffect_dropFromWake _ _)
    exact linkEffect_volatile s k _ fun v => ⟨rfl, rfl, rfl, rfl⟩

theorem linkEffect_quitBringup (s : State) (k : Nat) : LinkEffect s (s.quitBringup k) := by
  unfold State.quitBringup
  split
  · exact (linkEffect_release _ _).trans (linkEffect_mapLink _ _ _)
  all_goals exact .refl s

theorem linkEffect_oweDecline (s : State) (k : Nat) (c : FailCause) : LinkEffect s (s.oweDecline k c) := by
  unfold State.oweDecline
  cases c
  · exact linkEffect_leaveQueue _ _
  · exact linkEffect_volatile s k _ fun v => ⟨rfl, rfl, rfl, rfl⟩
  · exact linkEffect_volatile s k _ fun v => ⟨rfl, rfl, rfl, rfl⟩
  · exact linkEffect_leaveQueue _ _

theorem linkEffect_failBringup (s : State) (k : Nat) (c : FailCause) : LinkEffect s (s.failBringup k c) := by
  unfold State.failBringup
  refine LinkEffect.trans ?_ (linkEffect_oweDecline _ _ _)
  refine LinkEffect.trans ?_ (linkEffect_hand _ _)
  exact (linkEffect_quitBringup s k).trans (linkEffect_volatile _ k _ fun v => ⟨rfl, rfl, rfl, rfl⟩)

theorem linkEffect_endLink (s : State) (k : Nat) : LinkEffect s (s.endLink k) := by
  unfold State.endLink
  dsimp only
  refine LinkEffect.trans ?_ (linkEffect_leaveQueue _ _)
  refine LinkEffect.trans ?_ (linkEffect_mapLink _ _ _)
  refine LinkEffect.trans ?_ (linkEffect_dropProbe _ _)
  refine LinkEffect.trans ?_ (linkEffect_release _ _)
  split
  · exact .refl s
  · exact .refl s
  · exact linkEffect_failBringup _ _ _

theorem linkEffect_beginBringup (s : State) (k : Nat) : LinkEffect s (s.beginBringup k) := by
  unfold State.beginBringup
  refine LinkEffect.trans ?_ (linkEffect_mapLink _ _ _)
  refine LinkEffect.trans ?_ (linkEffect_volatile _ k _ fun v => ⟨rfl, rfl, rfl, rfl⟩)
  exact linkEffect_mapCaller s k _ fun c => ⟨rfl, rfl, rfl⟩

theorem linkEffect_sendInvite (s : State) (c : Caller) (page : Nat) : LinkEffect s (s.sendInvite c page) := by
  unfold State.sendInvite
  refine LinkEffect.trans ?_ (linkEffect_handDown _ _ _)
  split
  · exact linkEffect_beginBringup _ _
  · exact .refl s

theorem linkEffect_allocateProbe (s : State) (slot : Nat) (former : LinkState) :
    LinkEffect s (s.allocateProbe slot former) := by
  match former with
  | .bound | .silent => exact linkEffect_dropProbe s slot
  | .absent | .bringup _ => exact .refl s

theorem linkEffect_sendOffer (s : State) (c : Caller) (p : Page1) : LinkEffect s (s.sendOffer c p) := by
  unfold State.sendOffer
  dsimp only
  refine (linkEffect_release s c.slot).trans ?_
  generalize s.release c.slot = t
  split
  · refine LinkEffect.trans ?_ (linkEffect_handDown _ _ _)
    refine LinkEffect.trans ?_ (linkEffect_allocateProbe _ _ _)
    refine LinkEffect.trans ?_ (linkEffect_volatile _ c.slot _ fun v => ⟨rfl, rfl, rfl, rfl⟩)
    exact (linkEffect_fillCells _ _ _).trans (linkEffect_mapLink _ _ _)
  · exact ((linkEffect_handDown _ _ _).trans (linkEffect_mapLink _ _ _)).trans (linkEffect_failBringup _ _ _)

theorem linkEffect_sendDecline (s : State) (c : Caller) : LinkEffect s (s.sendDecline c) :=
  (linkEffect_handDown _ _ _).trans (linkEffect_leaveQueue _ _)

theorem linkEffect_serveCaller (s : State) (c : Caller) : LinkEffect s (s.serveCaller c) := by
  unfold State.serveCaller
  dsimp only
  refine (linkEffect_mapCaller s c.slot (fun c => { c with mark := true }) fun c => ⟨rfl, rfl, rfl⟩).trans ?_
  split
  · exact linkEffect_sendDecline _ _
  · exact linkEffect_sendInvite _ _ _
  · split
    · exact linkEffect_sendOffer _ _ _
    · exact linkEffect_sendInvite _ _ _
  · split
    · exact linkEffect_sendOffer _ _ _
    · exact linkEffect_sendInvite _ _ _
  · split
    · exact linkEffect_sendOffer _ _ _
    · exact linkEffect_sendInvite _ _ _
    · exact linkEffect_sendInvite _ _ _
  · exact .refl _
  · exact .refl _

theorem linkEffect_serveFreeCell (s : State) : LinkEffect s s.serveFreeCell := by
  unfold State.serveFreeCell
  split
  · exact linkEffect_serveCaller _ _
  · exact .refl s

theorem linkEffect_pollRequest (s : State) (k kitId : Nat) : LinkEffect s (s.pollRequest k kitId).1 := by
  unfold State.pollRequest
  split
  · exact .refl s
  · next a ha =>
    split
    · dsimp only
      refine (linkEffect_handAll s (a.expireRelay k).2).trans ?_
      refine linkEffect_setAccount (a := a) ?_ ?_
      · rw [account_congr (s := s) (by simp)]; exact ha
      · exact ((FieldChange.expireRelay a k).trans (.createGrant _ _ _ _)).trans (.countRelay _)
    · exact .refl s

theorem linkEffect_startPoll (s : State) (k : Nat) : LinkEffect s (s.startPoll k) :=
  (linkEffect_pollRequest s k _).trans (linkEffect_handDown _ _ _)

theorem linkEffect_startWake (s : State) (k : Nat) : LinkEffect s (s.startWake k) := by
  unfold State.startWake
  split
  · exact linkEffect_handDown _ _ _
  · exact linkEffect_startPoll _ _

/-- What the use of a data slot can do (R126). -/
theorem linkEffect_useDataSlot (s : State) (n : Nat) : LinkEffect s (s.useDataSlot n) := by
  unfold State.useDataSlot
  split
  · split
    · exact linkEffect_serveFreeCell _
    · split
      · exact linkEffect_startWake _ _
      · exact linkEffect_startWake _ _
      · exact linkEffect_startPoll _ _
      all_goals exact linkEffect_serveFreeCell _
  · exact .refl s

theorem linkEffect_keyingNotice (s : State) (k kitId : Nat) (g : Option Grant) : LinkEffect s (s.keyingNotice k kitId g) := by
  unfold State.keyingNotice
  split
  · next a ha =>
    split
    · exact linkEffect_setAccount ha (.keyed _ _)
    · exact .refl s
  · exact .refl s

theorem linkEffect_deliver (s : State) (k kitId : Nat) (r : KitReport) (i : InstructionSet) :
    LinkEffect s (s.deliver k kitId r i).1 := by
  unfold State.deliver
  split
  · exact .refl s
  · next a ha =>
    split
    · exact (linkEffect_setAccount ha (.reconcile _ _ _ _ _)).trans (linkEffect_handAll _ _)
    · exact .refl s

theorem linkEffect_confirmDelivery (s : State) (k : Nat) (p : Page1) (e : KitEvents) :
    LinkEffect s (s.confirmDelivery k p e) := by
  unfold State.confirmDelivery
  split
  · exact .refl s
  · next a ha =>
    split
    · split
      · split
        · exact .refl s
        · exact (linkEffect_setAccount ha (.reconcile _ _ _ _ _)).trans (linkEffect_handAll _ _)
      · exact (linkEffect_setAccount ha (.adopt _ _ _ _)).trans (linkEffect_handAll _ _)
    · exact .refl s

theorem linkEffect_bindLink (s : State) (k kitId : Nat) : LinkEffect s (s.bindLink k kitId) := by
  unfold State.bindLink
  dsimp only
  refine LinkEffect.trans ?_ (linkEffect_leaveQueue _ _)
  refine LinkEffect.trans ?_ (linkEffect_hand _ _)
  refine (linkEffect_mapLink s k (fun l => { l with state := .bound })).trans ?_
  generalize s.mapLink k (fun l => { l with state := .bound }) = t
  cases h : t.account k with
  | none =>
    refine ⟨rfl, rfl, rfl, rfl, rfl, rfl, rfl, fun j => ?_, reportsBounded_congr rfl, callersOrdered_congr rfl rfl,
      countersBounded_congr rfl rfl⟩
    rw [account_setAccount]
    split
    · next hj => rw [hj.1, h]; exact .inl ⟨rfl, rfl⟩
    · exact .refl _
  | some a => exact linkEffect_setAccount h (.bind a)

theorem linkEffect_hitCounts (s : State) (k kitId : Nat) : LinkEffect s (s.hitCounts k kitId) := by
  unfold State.hitCounts
  dsimp only
  have h : LinkEffect s ((s.mapLink k fun l => { l with history := appendWake l.history .hit, misses := 0 }).mapLinkVol k
      fun v => { v with goodFrames := satInc 65535 v.goodFrames }) :=
    (linkEffect_mapLink _ _ _).trans (linkEffect_mapLinkVol _ _ _ fun v h => by
      unfold LinkVolatile.CountersBounded satInc at *; dsimp only; omega)
  split
  · exact h.trans ((linkEffect_mapLink _ _ _).trans (linkEffect_hand _ _))
  · exact h

theorem linkEffect_hitReport (s : State) (k kitId : Nat) (i : InstructionSet) (p : List Byte) :
    LinkEffect s (s.hitReport k kitId i p) := by
  unfold State.hitReport
  dsimp only
  split
  · refine LinkEffect.trans ?_ (linkEffect_bindLink _ _ _)
    exact (linkEffect_deliver s k kitId _ i).trans (linkEffect_volatile _ k _ fun v => ⟨rfl, rfl, rfl, rfl⟩)
  · exact (linkEffect_deliver s k kitId _ i).trans (linkEffect_volatile _ k _ fun v => ⟨rfl, rfl, rfl, rfl⟩)

theorem linkEffect_endProbe (s : State) (k kitId : Nat) (p : Option Probe) (r : Probe → ProbeOutcome) :
    LinkEffect s (s.endProbe k kitId p r) := by
  unfold State.endProbe
  split
  · exact .refl s
  · refine LinkEffect.trans ?_ (linkEffect_hand _ _)
    exact linkEffect_volatile s k _ fun v => ⟨rfl, rfl, rfl, rfl⟩

theorem linkEffect_miss (s : State) (k kitId : Nat) (b : Bool) : LinkEffect s (s.miss k kitId b) := by
  unfold State.miss State.missCounts
  have h := (linkEffect_mapLink s k fun l =>
    { l with history := appendWake l.history .miss, misses := satInc 255 l.misses }).trans
    (linkEffect_mapLinkVol _ k (fun v =>
      { v with missedWakes := satInc 65535 v.missedWakes, reportTaken := v.reportTaken && !b }) fun v h => by
        unfold LinkVolatile.CountersBounded satInc at *; dsimp only; omega)
  refine h.trans ?_
  unfold State.silenceTest
  dsimp only
  split
  · exact (linkEffect_mapLink _ _ _).trans (linkEffect_hand _ _)
  · exact .refl _

theorem linkEffect_addCorrected (s : State) (k n : Nat) : LinkEffect s (s.addCorrected k n) :=
  linkEffect_mapLinkVol s k _ fun v h => by unfold LinkVolatile.CountersBounded at *; dsimp only; omega

theorem linkEffect_countFailed (s : State) (k : Nat) : LinkEffect s (s.countFailed k) :=
  linkEffect_mapLinkVol s k _ fun v h => by unfold LinkVolatile.CountersBounded satInc at *; dsimp only; omega

theorem linkEffect_judgeHit (s : State) (k kitId : Nat) (kind : ExchangeKind) (r : Arrival) (p : List Byte) :
    LinkEffect s (s.judgeHit k kitId kind r p) := by
  unfold State.judgeHit
  cases kind
  · exact (linkEffect_hitCounts _ _ _).trans (linkEffect_hitReport _ _ _ _ _)
  · exact (linkEffect_hitCounts _ _ _).trans (linkEffect_endProbe _ _ _ _ _)
  all_goals exact linkEffect_hitCounts _ _ _

theorem linkEffect_judgeMiss (s : State) (k kitId : Nat) (kind : ExchangeKind) :
    LinkEffect s (s.judgeMiss k kitId kind) := by
  unfold State.judgeMiss
  cases kind
  · exact linkEffect_miss _ _ _ _
  · exact (linkEffect_miss _ _ _ _).trans (linkEffect_endProbe _ _ _ _ _)
  all_goals exact linkEffect_miss _ _ _ _

theorem linkEffect_judgeWake (s : State) (k kitId : Nat) (kind : ExchangeKind) (r : Option Arrival) :
    LinkEffect s (s.judgeWake k kitId kind r) := by
  unfold State.judgeWake
  split
  · exact linkEffect_judgeMiss _ _ _ _
  · split
    · split
      · exact (linkEffect_addCorrected _ _ _).trans (linkEffect_judgeHit _ _ _ _ _ _)
      · exact ((linkEffect_addCorrected _ _ _).trans (linkEffect_countFailed _ _)).trans (linkEffect_judgeMiss _ _ _ _)
    · exact linkEffect_judgeMiss _ _ _ _

theorem linkEffect_takePage1 (s : State) (k : Nat) (p : Page1) : LinkEffect s (s.takePage1 k p) := by
  unfold State.takePage1
  dsimp only
  split
  · refine LinkEffect.trans ?_ (linkEffect_mapLink _ _ _)
    exact linkEffect_volatile s k _ fun v => ⟨rfl, rfl, rfl, rfl⟩
  · exact linkEffect_volatile s k _ fun v => ⟨rfl, rfl, rfl, rfl⟩

theorem linkEffect_confirmMatch (s : State) (k : Nat) (p : Page1) : LinkEffect s (s.confirmMatch k p) := by
  unfold State.confirmMatch
  dsimp only
  refine LinkEffect.trans ?_ (linkEffect_confirmDelivery _ _ _ _)
  refine LinkEffect.trans ?_ (linkEffect_mapLink _ _ _)
  exact linkEffect_volatile s k _ fun v => ⟨rfl, rfl, rfl, rfl⟩

theorem linkEffect_confirmMismatch (s : State) (k : Nat) : LinkEffect s (s.confirmMismatch k) := by
  unfold State.confirmMismatch
  dsimp only
  have h : LinkEffect s ((s.release k).mapLink k fun l => { l with state := .bringup .invited }) :=
    (linkEffect_release s k).trans (linkEffect_mapLink _ k _)
  refine h.trans ?_
  split
  · exact linkEffect_failBringup _ _ _
  · exact linkEffect_volatile _ k _ fun v => ⟨rfl, rfl, rfl, rfl⟩

theorem linkEffect_bringupReply (s : State) (k kitId : Nat) (kind : ExchangeKind) (r : Arrival) :
    LinkEffect s (s.bringupReply k kitId kind r) := by
  unfold State.bringupReply
  split
  · split
    · split
      · dsimp only; split
        · exact linkEffect_takePage1 _ _ _
        · exact .refl s
      · dsimp only; split
        · exact linkEffect_volatile s k _ fun v => ⟨rfl, rfl, rfl, rfl⟩
        · exact .refl s
      · split
        · split
          · exact linkEffect_confirmMatch _ _ _
          · exact linkEffect_confirmMismatch _ _
        · exact .refl s
      · exact .refl s
    · exact .refl s
  · exact .refl s

/-- What the outcome of an exchange can do (R116, R128, R141). -/
theorem linkEffect_exchangeOutcome (s : State) (r : Option Arrival) : LinkEffect s (s.exchangeOutcome r) := by
  unfold State.exchangeOutcome
  split
  · exact .refl s
  · refine (linkEffect_exchange s none).trans ?_
    dsimp only
    split
    · exact linkEffect_judgeWake _ _ _ _ _
    · exact linkEffect_judgeWake _ _ _ _ _
    · exact linkEffect_bringupReply _ _ _ _ _
    · exact linkEffect_bringupReply _ _ _ _ _
    all_goals exact .refl _

/-- What a CALL that is taken can do (R134). -/
theorem linkEffect_takeCall (s : State) (kitId u : Nat) : LinkEffect s (s.takeCall kitId u) := by
  unfold State.takeCall
  split
  · exact (linkEffect_bump _ _).trans (linkEffect_hand _ _)
  · next slot _ =>
    split
    · next c hc =>
      split
      · next hu =>
        refine ⟨rfl, rfl, rfl, rfl, rfl, rfl, rfl, fun _ => .refl _, reportsBounded_congr rfl, fun hs => ?_,
          countersBounded_congr rfl rfl⟩
        have hm := List.mem_of_find?_eq_some hc
        have hf : (s.setCallers (s.lc.callers.filter fun d => d.kitId != kitId)).CallersOrdered :=
          callersOrdered_filter (fun d => d.kitId != kitId) rfl rfl hs
        have hkc : c.kitId = kitId := by simpa using List.find?_some hc
        refine callersOrdered_insert { c with urgency := u } hf rfl ?_ ?_ ?_ (Nat.le_refl _) (hs.2.2.2.2 c hm)
        · have : (s.lc.callers.filter fun d => d.kitId != kitId).length < s.lc.callers.length := by
            rw [List.length_filter_lt_length_iff_exists]
            exact ⟨c, hm, by simp [hkc]⟩
          have := hs.1
          show (s.lc.callers.filter fun d => d.kitId != kitId).length < 8
          omega
        · intro d hd
          have := (List.mem_filter.1 hd).2
          simpa [hkc] using this
        · intro d hd e
          obtain ⟨hd1, hd2⟩ := List.mem_filter.1 hd
          have : d = c := List.inj_on_of_nodup_map hs.2.2.1 hd1 hm e
          subst this; simp [hkc] at hd2
      · exact .refl s
    · next hc =>
      split
      · next hl =>
        refine LinkEffect.trans (t := { s with lc := { s.lc with
          callers := insertCaller ⟨kitId, slot, u, s.lc.nextArrival, none, false⟩ s.lc.callers
          nextArrival := s.lc.nextArrival + 1 } }) ?_ ?_
        · refine ⟨rfl, rfl, rfl, rfl, rfl, rfl, rfl, fun _ => .refl _, reportsBounded_congr rfl, fun hs => ?_,
            countersBounded_congr rfl rfl⟩
          refine callersOrdered_insert ⟨kitId, slot, u, s.lc.nextArrival, none, false⟩ hs rfl hl ?_ ?_ (Nat.le_succ _)
            (Nat.lt_succ_self _)
          · intro d hd
            have := List.find?_eq_none.1 hc d hd
            simpa using this
          · intro d hd
            have := hs.2.2.2.2 d hd
            dsimp only; omega
        · exact (linkEffect_mapLink _ _ _).trans (linkEffect_volatile _ _ _ fun v => ⟨rfl, rfl, rfl, rfl⟩)
      · exact (linkEffect_bump _ _).trans (linkEffect_raise _ _)

theorem linkEffect_ageDecline (s : State) (c : Caller) : LinkEffect s (s.ageDecline c) := by
  unfold State.ageDecline
  split
  · split
    · exact linkEffect_leaveQueue _ _
    · exact linkEffect_volatile s c.slot _ fun v => ⟨rfl, rfl, rfl, rfl⟩
  · exact .refl s

theorem linkEffect_timeBringup (s : State) (c : Caller) : LinkEffect s (s.timeBringup c) := by
  unfold State.timeBringup
  split
  · split
    · exact linkEffect_failBringup _ _ _
    · exact .refl s
  · exact .refl s

theorem linkEffect_foldl {α : Type} (f : State → α → State) (hf : ∀ s a, LinkEffect s (f s a)) (l : List α) (s : State) :
    LinkEffect s (l.foldl f s) := by
  induction l generalizing s with
  | nil => exact .refl s
  | cons a l ih => exact (hf s a).trans (ih _)

/-- What the Link Controller's part of a cycle start can do (R133, R149, R151). -/
theorem linkEffect_linkCycleStart (s : State) : LinkEffect s s.linkCycleStart := by
  unfold State.linkCycleStart
  dsimp only
  refine LinkEffect.trans ?_ (linkEffect_foldl _ linkEffect_timeBringup _ _)
  refine LinkEffect.trans ?_ (linkEffect_foldl _ linkEffect_ageDecline _ _)
  exact ⟨rfl, rfl, rfl, rfl, rfl, rfl, rfl, fun _ => .refl _, reportsBounded_congr rfl,
    callersOrdered_map (fun c => { c with mark := false }) (fun c => ⟨rfl, rfl, rfl⟩) rfl rfl, countersBounded_congr rfl rfl⟩

end Sys2Proof.Machine
end

