-- ==== Sys2Proof/Laws/Calendar.lean ====
section
/-!
SUPPORT. What the operations over the Wake Calendar can do to it (R122 to R124), and that each operation of the Link Controller
keeps the calendar's law.
-/

namespace Sys2Proof.Machine

/-! ### Cells -/

/-- The cells of a list all set to one content, and no other. -/
theorem foldl_setIfInBounds (cells : List Nat) (v : Option Nat) (calendar : Vector (Option Nat) 1536)
    (i : Nat) : (cells.foldl (fun c i => c.setIfInBounds i v) calendar)[i]? =
      if i ∈ cells ∧ i < 1536 then some v else (calendar[i]?) := by
  induction cells generalizing calendar with
  | nil => simp
  | cons a cells ih =>
    rw [List.foldl_cons, ih, Vector.getElem?_setIfInBounds]
    grind

/-- What a fill leaves in each cell. -/
theorem fillCells_calendar (s : State) (p : Placement) (v : Option Nat) (i : Nat) :
    (s.fillCells p v).ret.calendar[i]? = if i ∈ p.cells ∧ i < 1536 then some v else s.ret.calendar[i]? :=
  foldl_setIfInBounds _ _ _ _

/-- Outside the table a link record is the empty one. -/
theorem link_out {s : State} {k : Nat} (h : ¬ (1 ≤ k ∧ k ≤ 384)) : s.link k = {} := by
  have : ¬ slotPos k < 384 := fun hk => h (slotPos_lt.1 hk)
  simp [State.link, this]

/-- A release leaves the Link Controller's volatile state alone. -/
theorem release_lc (s : State) (k : Nat) : (s.release k).lc = s.lc := by unfold State.release; split <;> rfl

/-- What a release leaves of the link records (R124). -/
theorem link_release (s : State) (k j : Nat) :
    (s.release k).link j = if j = k then { s.link k with placement := none } else s.link j := by
  unfold State.release
  split
  · next h => split <;> simp_all [← h]
  · next p hp =>
    have hk : 1 ≤ k ∧ k ≤ 384 := by
      by_contra hk
      rw [link_out hk] at hp
      cases hp
    rw [link_mapLink, if_congr (and_iff_left hk) rfl rfl]
    rfl

/-- What a release leaves in each cell (R124). -/
theorem release_calendar (s : State) (k i : Nat) :
    (s.release k).ret.calendar[i]? =
      if (∃ p, (s.link k).placement = some p ∧ i ∈ p.cells) ∧ i < 1536 then some none else s.ret.calendar[i]? := by
  unfold State.release
  split
  · next h => simp [h]
  · next p h =>
    show (s.fillCells p none).ret.calendar[i]? = _
    rw [fillCells_calendar]
    simp [h]

/-- What an allocation finds is free and at the exponents searched (R123). -/
theorem findPlacement_free {s : State} {start top : Nat} {p : Placement} (h : s.findPlacement start top = some p) :
    ∀ i ∈ p.cells, s.ret.calendar[i]? = some none := by
  have := List.find?_some h
  simpa [State.placementFree] using this

/-! ### The law in two parts -/

/-- The part of the calendar's law about cells (R122): placements and occupied cells agree. -/
def State.CellsLawful (s : State) : Prop :=
  (∀ k p, (s.link k).placement = some p → ∀ i ∈ p.cells, s.ret.calendar[i]? = some (some k)) ∧
  ∀ i k, s.ret.calendar[i]? = some (some k) → ∃ p, (s.link k).placement = some p ∧ i ∈ p.cells

/-- The part about one link record: it holds a placement exactly when its state is one that does. -/
def LinkRetained.Lawful (l : LinkRetained) : Prop := l.placement.isSome = l.state.placed

theorem cellsLawful_congr {s t : State} (hc : t.ret.calendar = s.ret.calendar)
    (hl : ∀ k, (t.link k).placement = (s.link k).placement) (hs : s.CellsLawful) : t.CellsLawful := by
  unfold State.CellsLawful at *
  simpa only [hc, hl] using hs

theorem cellsLawful_release {s : State} (k : Nat) (hs : s.CellsLawful) : (s.release k).CellsLawful := by
  refine ⟨fun j p hp i hi => ?_, fun i j hj => ?_⟩
  · rw [link_release] at hp
    split at hp
    · cases hp
    · next hjk =>
      have h := hs.1 j p hp i hi
      rw [release_calendar, if_neg]
      · exact h
      · rintro ⟨⟨q, hq, hiq⟩, -⟩
        have := hs.1 k q hq i hiq
        rw [h] at this
        cases this
        exact hjk rfl
  · rw [release_calendar] at hj
    split at hj
    · cases hj
    · next hn =>
      obtain ⟨p, hp, hi⟩ := hs.2 i j hj
      refine ⟨p, ?_, hi⟩
      rw [link_release, if_neg]
      · exact hp
      · rintro rfl
        refine hn ⟨⟨p, hp, hi⟩, ?_⟩
        by_contra hlt
        simp [Nat.not_lt.mp hlt] at hj

/-- The taking of free cells by a link without a placement (R123). -/
theorem cellsLawful_take {s : State} {k : Nat} {p : Placement} (l : LinkRetained) (hk : 1 ≤ k ∧ k ≤ 384)
    (hn : (s.link k).placement = none) (hf : ∀ i ∈ p.cells, s.ret.calendar[i]? = some none) (hl : l.placement = some p)
    (hs : s.CellsLawful) : ((s.fillCells p (some k)).setLink k l).CellsLawful := by
  have hlink (j : Nat) : (((s.fillCells p (some k)).setLink k l).link j).placement =
      if j = k then some p else (s.link j).placement := by
    rw [link_setLink]
    have : (s.fillCells p (some k)).link j = s.link j := link_congr rfl j
    grind
  have hb {i : Nat} (hi : i ∈ p.cells) : i < 1536 := by
    by_contra hlt
    have := hf i hi
    simp [Nat.not_lt.mp hlt] at this
  have hcal (i : Nat) : ((s.fillCells p (some k)).setLink k l).ret.calendar[i]? =
      if i ∈ p.cells ∧ i < 1536 then some (some k) else s.ret.calendar[i]? := fillCells_calendar s p (some k) i
  refine ⟨fun j q hq i hi => ?_, fun i j hj => ?_⟩
  · rw [hlink] at hq
    rw [hcal]
    split at hq
    · next hj => cases hq; simp [hi, hb hi, hj]
    · have h := hs.1 j q hq i hi
      rw [if_neg]
      · exact h
      · rintro ⟨hp, -⟩
        rw [hf i hp] at h
        cases h
  · rw [hcal] at hj
    rw [hlink]
    split at hj
    · next hi => cases hj; exact ⟨p, by simp, hi.1⟩
    · obtain ⟨q, hq, hi⟩ := hs.2 i j hj
      refine ⟨q, ?_, hi⟩
      rw [if_neg]
      · exact hq
      · rintro rfl; rw [hn] at hq; cases hq

/-! ### The law over the elementary operations -/

theorem calendarLawful_iff {s : State} : s.CalendarLawful ↔
    (∀ k, (s.link k).Lawful) ∧ s.CellsLawful ∧ ∀ c ∈ s.lc.callers, 1 ≤ c.slot ∧ c.slot ≤ 384 :=
  ⟨fun h => ⟨h.1, ⟨h.2.1, h.2.2.1⟩, h.2.2.2⟩, fun h => ⟨h.1, h.2.1.1, h.2.1.2, h.2.2⟩⟩

/-- A change that leaves calendar, link records and Caller Queue alone. -/
theorem calendarLawful_congr {s t : State} (hc : t.ret.calendar = s.ret.calendar) (hl : t.ret.links = s.ret.links)
    (hq : t.lc.callers = s.lc.callers) (hs : s.CalendarLawful) : t.CalendarLawful := by
  have hlink : t.link = s.link := funext (link_congr hl)
  unfold State.CalendarLawful at *
  rwa [hlink, hc, hq]

/-- A change of the Caller Queue. -/
theorem calendarLawful_callers {s t : State} (hc : t.ret.calendar = s.ret.calendar) (hl : t.ret.links = s.ret.links)
    (hq : ∀ c ∈ t.lc.callers, 1 ≤ c.slot ∧ c.slot ≤ 384) (hs : s.CalendarLawful) : t.CalendarLawful := by
  have hlink : t.link = s.link := funext (link_congr hl)
  unfold State.CalendarLawful at *
  rw [hlink, hc]
  exact ⟨hs.1, hs.2.1, hs.2.2.1, hq⟩

/-- A change of a link record that keeps its placement, and whether its state holds one. -/
theorem calendarLawful_mapLink {s : State} (k : Nat) (f : LinkRetained → LinkRetained)
    (hp : (f (s.link k)).placement = (s.link k).placement) (hst : (f (s.link k)).state.placed = (s.link k).state.placed)
    (hs : s.CalendarLawful) : (s.mapLink k f).CalendarLawful := by
  rw [calendarLawful_iff] at *
  refine ⟨fun j => ?_, cellsLawful_congr (s := s) rfl (fun j => ?_) hs.2.1, hs.2.2⟩
  · rw [link_mapLink]
    split
    · unfold LinkRetained.Lawful
      rw [hp, hst]
      exact hs.1 k
    · exact hs.1 j
  · rw [link_mapLink]
    split
    · next h => rw [hp, h.1]
    · rfl

/-- A release whose link then stands in a state without a placement, with other changes between. -/
theorem calendarLawful_vacate {s t : State} (k : Nat) (f : LinkRetained → LinkRetained)
    (hf : ∀ l, (f l).placement = l.placement ∧ (f l).state.placed = false) (hr : t.ret = (s.release k).ret)
    (hq : t.lc.callers = s.lc.callers) (hs : s.CalendarLawful) : (t.mapLink k f).CalendarLawful := by
  rw [calendarLawful_iff] at *
  have hlink (j : Nat) : t.link j = (s.release k).link j := link_congr (congrArg Retained.links hr) j
  have hnone : (f ((s.release k).link k)).placement = none := by rw [(hf _).1, link_release, if_pos rfl]
  refine ⟨fun j => ?_, cellsLawful_congr (s := s.release k) (show t.ret.calendar = _ by rw [hr]) (fun j => ?_)
    (cellsLawful_release k hs.2.1), fun c hc => hs.2.2 c (hq ▸ hc)⟩
  · rw [link_mapLink, hlink, hlink]
    unfold LinkRetained.Lawful
    split
    · rw [hnone, (hf _).2]; rfl
    · next h =>
      rw [link_release]
      split
      · next hj => rw [link_out fun hk => h ⟨hj, hk⟩]; rfl
      · exact hs.1 j
  · rw [link_mapLink, hlink, hlink]
    split
    · next h => rw [hnone, link_release, if_pos h.1]
    · rfl

/-- A caller found in the queue has a slot of the tables. -/
theorem calendarLawful_caller {s : State} {c : Caller} (hs : s.CalendarLawful) (hc : c ∈ s.lc.callers) : 1 ≤ c.slot ∧ c.slot ≤ 384 :=
  hs.2.2.2 c hc

theorem calendarLawful_mapCaller {s : State} (k : Nat) (f : Caller → Caller) (hf : ∀ c, (f c).slot = c.slot)
    (hs : s.CalendarLawful) : (s.mapCaller k f).CalendarLawful := by
  refine calendarLawful_callers (s := s) rfl rfl (fun c hc => ?_) hs
  obtain ⟨d, hd, rfl⟩ := List.mem_map.1 hc
  have h := hs.2.2.2 d hd
  split
  · rw [hf]; exact h
  · exact h

theorem calendarLawful_leaveQueue {s : State} (k : Nat) (hs : s.CalendarLawful) : (s.leaveQueue k).CalendarLawful := by
  unfold State.leaveQueue
  refine calendarLawful_mapLink _ _ ?_ ?_ ?_
  · unfold LinkRetained.dropAbsentKit; split <;> rfl
  · unfold LinkRetained.dropAbsentKit; split <;> rfl
  · exact calendarLawful_callers (s := s) rfl rfl (fun c hc => hs.2.2.2 c (List.mem_filter.1 hc).1) hs

/-! ### The law over the operations of 07 to 09 -/

variable {s : State}

theorem calendarLawful_mapLinkVol (k : Nat) (f : LinkVolatile → LinkVolatile) (hs : s.CalendarLawful) :
    (s.mapLinkVol k f).CalendarLawful := calendarLawful_congr rfl rfl rfl hs

theorem calendarLawful_hand (r : Report) (hs : s.CalendarLawful) : (s.hand r).CalendarLawful :=
  calendarLawful_congr (by simp) (by simp) (by simp) hs

theorem calendarLawful_handAll (rs : List Report) (hs : s.CalendarLawful) : (s.handAll rs).CalendarLawful :=
  calendarLawful_congr (by simp) (by simp) (by simp) hs

theorem calendarLawful_setAccount (k : Nat) (a : Option Account) (hs : s.CalendarLawful) : (s.setAccount k a).CalendarLawful :=
  calendarLawful_congr rfl rfl rfl hs

theorem calendarLawful_handDown (f : DownFrame) (e : Exchange) (hs : s.CalendarLawful) : (s.handDown f e).CalendarLawful := by
  unfold State.handDown
  split
  · exact hs
  · exact calendarLawful_congr rfl rfl rfl hs

theorem dropProbe_ret (s : State) (k : Nat) : (s.dropProbe k).ret = s.ret := by
  unfold State.dropProbe State.dropFromWake
  split
  · rfl
  · rw [State.hand_ret]; split <;> rfl

theorem dropProbe_callers (s : State) (k : Nat) : (s.dropProbe k).lc.callers = s.lc.callers := by
  unfold State.dropProbe State.dropFromWake
  split
  · rfl
  · rw [State.hand_lc]; split <;> rfl

theorem calendarLawful_dropProbe (k : Nat) (hs : s.CalendarLawful) : (s.dropProbe k).CalendarLawful := by
  unfold State.dropProbe State.dropFromWake
  split
  · exact hs
  · refine calendarLawful_hand _ ?_
    split <;> exact calendarLawful_congr rfl rfl rfl hs

theorem calendarLawful_quitBringup (k : Nat) (hs : s.CalendarLawful) : (s.quitBringup k).CalendarLawful := by
  unfold State.quitBringup
  split
  · exact calendarLawful_vacate k _ (fun _ => ⟨rfl, rfl⟩) rfl (by rw [release_lc]) hs
  all_goals exact hs

theorem calendarLawful_oweDecline (k : Nat) (c : FailCause) (hs : s.CalendarLawful) : (s.oweDecline k c).CalendarLawful := by
  cases c
  · exact calendarLawful_leaveQueue k hs
  · exact calendarLawful_mapLinkVol k _ hs
  · exact calendarLawful_mapLinkVol k _ hs
  · exact calendarLawful_leaveQueue k hs

theorem calendarLawful_failBringup (k : Nat) (c : FailCause) (hs : s.CalendarLawful) : (s.failBringup k c).CalendarLawful :=
  calendarLawful_oweDecline _ _ (calendarLawful_hand _ (calendarLawful_mapLinkVol _ _ (calendarLawful_quitBringup k hs)))

theorem calendarLawful_endLink (k : Nat) (hs : s.CalendarLawful) : (s.endLink k).CalendarLawful := by
  unfold State.endLink
  dsimp only
  have key (t : State) (ht : t.CalendarLawful) :
      ((((t.release k).dropProbe k).mapLink k fun l => { l with state := .absent, kitId := none }).leaveQueue k).CalendarLawful := by
    refine calendarLawful_leaveQueue k ?_
    refine calendarLawful_vacate (s := t) k _ (fun _ => ⟨rfl, rfl⟩) (dropProbe_ret _ _) ?_ ht
    rw [dropProbe_callers, release_lc]
  split
  · exact key s hs
  · exact key s hs
  · exact key _ (calendarLawful_failBringup _ _ hs)

theorem calendarLawful_beginBringup (k : Nat) (hs : s.CalendarLawful) : (s.beginBringup k).CalendarLawful := by
  unfold State.beginBringup
  refine calendarLawful_mapLink k _ ?_ ?_ (calendarLawful_mapLinkVol k _ (calendarLawful_mapCaller k _ (fun _ => rfl) hs))
  · split <;> rfl
  · split
    · next h => rw [h]; rfl
    · rfl

theorem calendarLawful_sendInvite (c : Caller) (page : Nat) (hs : s.CalendarLawful) : (s.sendInvite c page).CalendarLawful := by
  unfold State.sendInvite
  refine calendarLawful_handDown _ _ ?_
  split
  · exact calendarLawful_beginBringup _ hs
  · exact hs

theorem calendarLawful_allocateProbe (slot : Nat) (former : LinkState) (hs : s.CalendarLawful) :
    (s.allocateProbe slot former).CalendarLawful := by
  match former with
  | .bound | .silent => exact calendarLawful_dropProbe _ hs
  | .absent | .bringup _ => exact hs

theorem calendarLawful_sendOffer (c : Caller) (p1 : Page1) (hc : 1 ≤ c.slot ∧ c.slot ≤ 384) (hs : s.CalendarLawful) :
    (s.sendOffer c p1).CalendarLawful := by
  unfold State.sendOffer
  dsimp only
  have hr := cellsLawful_release c.slot (calendarLawful_iff.1 hs).2.1
  split
  · next p hp =>
    refine calendarLawful_handDown _ _ (calendarLawful_allocateProbe _ _ (calendarLawful_mapLinkVol _ _ ?_))
    rw [calendarLawful_iff]
    refine ⟨fun j => ?_, ?_, ?_⟩
    · rw [link_mapLink]
      split
      · rfl
      · next h =>
        show ((s.release c.slot).link j).Lawful
        rw [link_release, if_neg fun hj => h ⟨hj, hc⟩]
        exact hs.1 j
    · exact cellsLawful_take _ hc (by simp [link_release]) (findPlacement_free hp) rfl hr
    · show ∀ d ∈ (s.release c.slot).lc.callers, _
      rw [release_lc]
      exact hs.2.2.2
  · refine calendarLawful_failBringup _ _ ?_
    have hd (t : State) (f : DownFrame) (e : Exchange) : (t.handDown f e).ret = t.ret ∧ (t.handDown f e).lc.callers = t.lc.callers := by
      unfold State.handDown; split <;> exact ⟨rfl, rfl⟩
    refine calendarLawful_vacate (s := s) c.slot _ (fun _ => ⟨rfl, rfl⟩) (hd _ _ _).1 ?_ hs
    rw [(hd _ _ _).2, release_lc]

theorem calendarLawful_serveCaller (c : Caller) (hc : 1 ≤ c.slot ∧ c.slot ≤ 384) (hs : s.CalendarLawful) :
    (s.serveCaller c).CalendarLawful := by
  unfold State.serveCaller
  dsimp only
  have h := calendarLawful_mapCaller c.slot (fun c => { c with mark := true }) (fun _ => rfl) hs
  split
  · exact calendarLawful_leaveQueue _ (calendarLawful_handDown _ _ h)
  · exact calendarLawful_sendInvite _ _ h
  · split
    · exact calendarLawful_sendOffer _ _ hc h
    · exact calendarLawful_sendInvite _ _ h
  · split
    · exact calendarLawful_sendOffer _ _ hc h
    · exact calendarLawful_sendInvite _ _ h
  · split
    · exact calendarLawful_sendOffer _ _ hc h
    · exact calendarLawful_sendInvite _ _ h
    · exact calendarLawful_sendInvite _ _ h
  · exact h
  · exact h

theorem calendarLawful_startPoll (k : Nat) (hs : s.CalendarLawful) : (s.startPoll k).CalendarLawful := by
  have h (kitId : Nat) : (s.pollRequest k kitId).1.CalendarLawful := by
    unfold State.pollRequest
    split
    · exact hs
    · split
      · exact calendarLawful_setAccount _ _ (calendarLawful_handAll _ hs)
      · exact hs
  exact calendarLawful_handDown _ _ (h _)

/-- The use of a data slot keeps the calendar's law (R126). -/
theorem calendarLawful_useDataSlot (n : Nat) (hs : s.CalendarLawful) : (s.useDataSlot n).CalendarLawful := by
  have hfree : s.serveFreeCell.CalendarLawful := by
    unfold State.serveFreeCell
    split
    · next c hc => exact calendarLawful_serveCaller c (hs.2.2.2 c (List.mem_of_find?_eq_some hc)) hs
    · exact hs
  have hwake (k : Nat) : (s.startWake k).CalendarLawful := by
    unfold State.startWake
    split
    · exact calendarLawful_handDown _ _ hs
    · exact calendarLawful_startPoll _ hs
  unfold State.useDataSlot
  split
  · split
    · exact hfree
    · split
      · exact hwake _
      · exact hwake _
      · exact calendarLawful_startPoll _ hs
      all_goals exact hfree
  · exact hs

theorem calendarLawful_hitCounts (k kitId : Nat) (hs : s.CalendarLawful) : (s.hitCounts k kitId).CalendarLawful := by
  have h := calendarLawful_mapLinkVol k (fun v => { v with goodFrames := satInc 65535 v.goodFrames })
    (calendarLawful_mapLink k (fun l => { l with history := appendWake l.history .hit, misses := 0 }) rfl rfl hs)
  unfold State.hitCounts
  dsimp only
  split
  · next hl =>
    refine calendarLawful_hand _ (calendarLawful_mapLink k _ rfl ?_ h)
    have : ((s.mapLink k fun l => { l with history := appendWake l.history .hit, misses := 0 }).link k).state = (s.link k).state := by
      rw [link_mapLink]; split <;> rfl
    exact (congrArg LinkState.placed (this.trans hl)).symm
  · exact h

theorem calendarLawful_bindLink (k kitId : Nat) (hl : (s.link k).state = .bringup .confirmed) (hs : s.CalendarLawful) :
    (s.bindLink k kitId).CalendarLawful :=
  calendarLawful_leaveQueue _ (calendarLawful_hand _ (calendarLawful_setAccount _ _ (calendarLawful_mapLink k _ rfl
    (congrArg LinkState.placed hl).symm hs)))

theorem deliver_ret (s : State) (k kitId : Nat) (r : KitReport) (i : InstructionSet) :
    (s.deliver k kitId r i).1.ret.calendar = s.ret.calendar ∧ (s.deliver k kitId r i).1.ret.links = s.ret.links ∧
      (s.deliver k kitId r i).1.lc = s.lc := by
  unfold State.deliver
  split
  · exact ⟨rfl, rfl, rfl⟩
  · split
    · simp
    · exact ⟨rfl, rfl, rfl⟩

theorem calendarLawful_hitReport (k kitId : Nat) (i : InstructionSet) (p : List Byte) (hs : s.CalendarLawful) :
    (s.hitReport k kitId i p).CalendarLawful := by
  obtain ⟨hc, hl, hlc⟩ := deliver_ret s k kitId (KitReport.read p) i
  have h : (s.deliver k kitId (KitReport.read p) i).1.CalendarLawful :=
    calendarLawful_congr hc hl (congrArg LinkControl.callers hlc) hs
  unfold State.hitReport
  dsimp only
  split
  · next hst =>
    refine calendarLawful_bindLink _ _ ?_ (calendarLawful_mapLinkVol _ _ h)
    exact (congrArg LinkRetained.state (link_congr (s := s) hl k)).trans (by simpa using hst)
  · exact calendarLawful_mapLinkVol _ _ h

theorem calendarLawful_miss (k kitId : Nat) (b : Bool) (hs : s.CalendarLawful) : (s.miss k kitId b).CalendarLawful := by
  unfold State.miss State.missCounts State.silenceTest
  have h := calendarLawful_mapLinkVol k
    (fun v => { v with missedWakes := satInc 65535 v.missedWakes, reportTaken := v.reportTaken && !b })
    (calendarLawful_mapLink k (fun l => { l with history := appendWake l.history .miss, misses := satInc 255 l.misses }) rfl rfl hs)
  dsimp only
  split
  · next hb => exact calendarLawful_hand _ (calendarLawful_mapLink k _ rfl (congrArg LinkState.placed hb.1).symm h)
  · exact h

theorem calendarLawful_endProbe (k kitId : Nat) (p : Option Probe) (r : Probe → ProbeOutcome) (hs : s.CalendarLawful) :
    (s.endProbe k kitId p r).CalendarLawful := by
  unfold State.endProbe
  split
  · exact hs
  · exact calendarLawful_hand _ (calendarLawful_mapLinkVol _ _ hs)

theorem calendarLawful_judgeWake (k kitId : Nat) (kind : ExchangeKind) (r : Option Arrival) (hs : s.CalendarLawful) :
    (s.judgeWake k kitId kind r).CalendarLawful := by
  have hmiss {s : State} (hs : s.CalendarLawful) : (s.judgeMiss k kitId kind).CalendarLawful := by
    cases kind
    · exact calendarLawful_miss _ _ _ hs
    · exact calendarLawful_endProbe _ _ _ _ (calendarLawful_miss _ _ _ hs)
    all_goals exact calendarLawful_miss _ _ _ hs
  unfold State.judgeWake
  split
  · exact hmiss hs
  · split
    · split
      · next r _ _ _ _ =>
        have h : ((s.addCorrected k r.corrected).hitCounts k kitId).CalendarLawful :=
          calendarLawful_hitCounts k kitId (calendarLawful_mapLinkVol k _ hs)
        cases kind
        · exact calendarLawful_hitReport _ _ _ _ h
        · exact calendarLawful_endProbe _ _ _ _ h
        all_goals exact h
      · exact hmiss (calendarLawful_mapLinkVol _ _ (calendarLawful_mapLinkVol _ _ hs))
    · exact hmiss hs

theorem calendarLawful_takePage1 (k : Nat) (p : Page1) (hs : s.CalendarLawful) : (s.takePage1 k p).CalendarLawful := by
  unfold State.takePage1
  dsimp only
  split
  · refine calendarLawful_mapLink k _ ?_ ?_ (calendarLawful_mapLinkVol k _ hs)
    · split <;> rfl
    · split
      · next h => rw [h]; rfl
      · rfl
  · exact calendarLawful_mapLinkVol k _ hs

theorem calendarLawful_confirmMatch (k : Nat) (p1 : Page1) (hp : (s.link k).placement.isSome) (hs : s.CalendarLawful) :
    (s.confirmMatch k p1).CalendarLawful := by
  have h : ((s.mapLinkVol k fun v => { v with progress := some .confirmed, reportTaken := false }).mapLink k fun l =>
      { l with state := .bringup .confirmed, figures := some p1.figures }).CalendarLawful :=
    calendarLawful_mapLink k _ rfl (((hs.1 k).symm.trans hp).symm) (calendarLawful_mapLinkVol k _ hs)
  unfold State.confirmMatch State.confirmDelivery
  dsimp only
  split
  · exact h
  · split
    · split
      · split
        · exact h
        · exact calendarLawful_handAll _ (calendarLawful_setAccount _ _ h)
      · exact calendarLawful_handAll _ (calendarLawful_setAccount _ _ h)
    · exact h

theorem calendarLawful_confirmMismatch (k : Nat) (hs : s.CalendarLawful) : (s.confirmMismatch k).CalendarLawful := by
  have h : ((s.release k).mapLink k fun l => { l with state := .bringup .invited }).CalendarLawful :=
    calendarLawful_vacate k _ (fun _ => ⟨rfl, rfl⟩) rfl (by rw [release_lc]) hs
  unfold State.confirmMismatch
  dsimp only
  split
  · exact calendarLawful_failBringup _ _ h
  · exact calendarLawful_mapLinkVol _ _ h

/-- The outcome of an exchange keeps the calendar's law (R116, R128, R141). -/
theorem calendarLawful_exchangeOutcome (r : Option Arrival) (hs : s.CalendarLawful) : (s.exchangeOutcome r).CalendarLawful := by
  have hreply {s : State} (k kitId : Nat) (kind : ExchangeKind) (r : Arrival) (hs : s.CalendarLawful) :
      (s.bringupReply k kitId kind r).CalendarLawful := by
    unfold State.bringupReply
    split
    · split
      · split
        · dsimp only; split
          · exact calendarLawful_takePage1 _ _ hs
          · exact hs
        · dsimp only; split
          · exact calendarLawful_mapLinkVol _ _ hs
          · exact hs
        · split
          · split
            · next h =>
              refine calendarLawful_confirmMatch _ _ ?_ hs
              simp only [ConfirmPayload.agrees, Bool.and_eq_true, beq_iff_eq] at h
              rw [← h.1.1.1.1.1.1.2]
              rfl
            · exact calendarLawful_confirmMismatch _ hs
          · exact hs
        · exact hs
      · exact hs
    · exact hs
  unfold State.exchangeOutcome
  split
  · exact hs
  · have h {t : State} (hc : t.ret = s.ret) (hq : t.lc.callers = s.lc.callers) : t.CalendarLawful :=
      calendarLawful_congr (congrArg Retained.calendar hc) (congrArg Retained.links hc) hq hs
    dsimp only
    split
    · exact calendarLawful_judgeWake _ _ _ _ (h rfl rfl)
    · exact calendarLawful_judgeWake _ _ _ _ (h rfl rfl)
    · exact hreply _ _ _ _ (h rfl rfl)
    · exact hreply _ _ _ _ (h rfl rfl)
    all_goals exact h rfl rfl

/-- A CALL that is taken keeps the calendar's law (R134). -/
theorem calendarLawful_takeCall (kitId u : Nat) (hs : s.CalendarLawful) : (s.takeCall kitId u).CalendarLawful := by
  have hins (c : Caller) (cs : List Caller) (hc : 1 ≤ c.slot ∧ c.slot ≤ 384) (h : ∀ d ∈ cs, d ∈ s.lc.callers) :
      ∀ d ∈ insertCaller c cs, 1 ≤ d.slot ∧ d.slot ≤ 384 := fun d hd => by
    rcases List.mem_cons.1 ((insertCaller_perm c cs).mem_iff.1 hd) with rfl | hd
    · exact hc
    · exact hs.2.2.2 d (h d hd)
  unfold State.takeCall
  split
  · exact calendarLawful_hand _ (calendarLawful_congr (s := s) rfl rfl rfl hs)
  · next slot hslot =>
    have hk : 1 ≤ slot ∧ slot ≤ 384 := by
      obtain ⟨a, ha, -⟩ := slotOfKit_some hslot
      exact account_range ha
    split
    · next c hc =>
      split
      · refine calendarLawful_callers (s := s) rfl rfl (hins _ _ ?_ fun d hd => (List.mem_filter.1 hd).1) hs
        exact hs.2.2.2 c (List.mem_of_find?_eq_some hc)
      · exact hs
    · split
      · exact calendarLawful_mapLinkVol slot _ (calendarLawful_mapLink slot _ rfl rfl
          (calendarLawful_callers (s := s) rfl rfl (hins _ _ hk fun _ h => h) hs))
      · exact calendarLawful_congr (s := s) (by simp) (by simp) (by simp) hs

/-- The Link Controller's part of a cycle start keeps the calendar's law (R133, R149, R151). -/
theorem calendarLawful_linkCycleStart (hs : s.CalendarLawful) : s.linkCycleStart.CalendarLawful := by
  have hfold (f : State → Caller → State) (hf : ∀ s c, s.CalendarLawful → (f s c).CalendarLawful) (cs : List Caller) (s : State)
      (hs : s.CalendarLawful) : (cs.foldl f s).CalendarLawful := by
    induction cs generalizing s with
    | nil => exact hs
    | cons c cs ih => exact ih _ (hf s c hs)
  unfold State.linkCycleStart
  refine hfold _ (fun s c hs => ?_) _ _ (hfold _ (fun s c hs => ?_) _ _ (calendarLawful_callers (s := s) rfl rfl ?_ hs))
  · unfold State.timeBringup
    split
    · split
      · exact calendarLawful_failBringup _ _ hs
      · exact hs
    · exact hs
  · unfold State.ageDecline
    split
    · split
      · exact calendarLawful_leaveQueue _ hs
      · exact calendarLawful_mapLinkVol _ _ hs
    · exact hs
  · intro c hc
    obtain ⟨d, hd, rfl⟩ := List.mem_map.1 hc
    exact hs.2.2.2 d hd

/-- A link record released from its bring-up, then silenced, keeps its law (R137, R138). -/
theorem silence_lawful {l : LinkRetained} (h : l.Lawful) :
    (if l.state.inBringup then { l with placement := none } else l).silence.Lawful := by
  obtain ⟨st, kitId, placement, history, misses, figures⟩ := l
  unfold LinkRetained.Lawful LinkRetained.silence at *
  cases st <;> simp_all [LinkState.inBringup, LinkState.placed]

/-- The links across a field reset or a warm start keep the calendar's law (R137, R138). -/
theorem calendarLawful_silenceLinks (hs : s.CalendarLawful) : s.silenceLinks.CalendarLawful := by
  have hstep (t : State) (k : Nat) (hc : t.CellsLawful) : (t.releaseBringup k).CellsLawful := by
    unfold State.releaseBringup
    split
    · exact cellsLawful_release k hc
    · exact hc
  have hlink (t : State) (k j : Nat) : (t.releaseBringup k).link j =
      if j = k ∧ (t.link k).state.inBringup then { t.link k with placement := none } else t.link j := by
    unfold State.releaseBringup
    split
    · next h => rw [link_release]; simp [h]
    · next h => simp [h]
  have hfold (ks : List Nat) (t : State) (hc : t.CellsLawful) : (ks.foldl State.releaseBringup t).CellsLawful ∧
      (ks.foldl State.releaseBringup t).lc = t.lc ∧
      ∀ j, (ks.foldl State.releaseBringup t).link j =
        if j ∈ ks ∧ (t.link j).state.inBringup then { t.link j with placement := none } else t.link j := by
    induction ks generalizing t with
    | nil => exact ⟨hc, rfl, fun j => by simp⟩
    | cons k ks ih =>
      obtain ⟨h1, h2, h3⟩ := ih _ (hstep t k hc)
      refine ⟨h1, h2.trans ?_, fun j => ?_⟩
      · unfold State.releaseBringup; split
        · exact release_lc t k
        · rfl
      · rw [List.foldl_cons, h3, hlink]
        grind
  obtain ⟨h1, h2, h3⟩ := hfold slotIndices s (calendarLawful_iff.1 hs).2.1
  have hsil (j : Nat) : s.silenceLinks.link j = ((slotIndices.foldl State.releaseBringup s).link j).silence := by
    by_cases hj : 1 ≤ j ∧ j ≤ 384
    · have := slotPos_lt.2 hj
      simp [State.silenceLinks, State.link, this]
    · rw [link_out hj, link_out hj]; rfl
  have hmem {j : Nat} (h : (s.link j).state.inBringup) : j ∈ slotIndices := by
    by_cases hj : 1 ≤ j ∧ j ≤ 384
    · simp [slotIndices, List.mem_range'_1]; omega
    · rw [link_out hj] at h; cases h
  have key (j : Nat) : (s.silenceLinks.link j).placement = ((slotIndices.foldl State.releaseBringup s).link j).placement := by
    rw [hsil]; unfold LinkRetained.silence; split <;> rfl
  rw [calendarLawful_iff]
  refine ⟨fun j => ?_, cellsLawful_congr (s := slotIndices.foldl State.releaseBringup s) (by rw [State.silenceLinks]) key h1, ?_⟩
  · have hj : (s.link j).Lawful := hs.1 j
    rw [hsil, h3, if_congr (and_iff_right_of_imp hmem) rfl rfl]
    exact silence_lawful hj
  · have hq : s.silenceLinks.lc = (slotIndices.foldl State.releaseBringup s).lc := by rw [State.silenceLinks]
    rw [hq, h2]
    exact hs.2.2.2

end Sys2Proof.Machine
end

