-- ==== Sys2Proof/Laws/Operands.lean ====
section
/-!
SUPPORT. The ranges of the fields read from bytes.
-/

namespace Sys2Proof.Machine

theorem byteAt_lt (bs : List Byte) (i : Nat) : byteAt bs i < 256 := (bs.getD i 0).isLt

theorem beNat_foldl_lt (bs : List Byte) (acc k : Nat) (h : acc < 256 ^ k) :
    bs.foldl (fun acc b => acc * 256 + b.toNat) acc < 256 ^ (k + bs.length) := by
  induction bs generalizing acc k with
  | nil => simpa using h
  | cons b bs ih =>
    have hb : b.toNat < 256 := b.isLt
    have := ih (acc * 256 + b.toNat) (k + 1) (by rw [Nat.pow_succ]; omega)
    simpa [Nat.add_assoc, Nat.add_comm 1] using this

theorem beNat_lt (bs : List Byte) : beNat bs < 256 ^ bs.length := by
  simpa [beNat] using beNat_foldl_lt bs 0 0 (by simp)

/-- A field of `n` bytes is below 256 to the `n`. -/
theorem field_lt (bs : List Byte) (off n : Nat) : field bs off n < 256 ^ n :=
  (beNat_lt _).trans_le (Nat.pow_le_pow_right (by omega) (by simp))

end Sys2Proof.Machine
end

