-- ==== Sys2Proof/Laws/Handlers.lean ====
section
/-!
SUPPORT. What taking a frame can do (R72, R77, R87), and what each handler can make of the state: the one form of the state it
answers, or the forms where it has several.
-/

namespace Sys2Proof.Machine

/-! ### Taking a frame -/

/-- The taking of a frame: nothing, or the oldest frame classified. -/
theorem takeFrame_cases (s : State) (admits : RxFrame → State → Bool) (action : HandlerAction) :
    s.takeFrame admits action = s ∨ ∃ f rest, s.tp.queue = f :: rest ∧ s.powered = true ∧ admits f s = true ∧
      s.takeFrame admits action = classify action f (s.setRxQueue rest) := by
  unfold State.takeFrame
  split
  · exact .inl rfl
  · next f rest hq =>
    by_cases h : (s.powered && admits f s) = true
    · rw [if_pos h]
      rw [Bool.and_eq_true] at h
      exact .inr ⟨f, rest, hq, h.1, h.2, rfl⟩
    · rw [if_neg h]; exact .inl rfl

/-- A frame classified: dropped as foreign, refused with or without a record, or applied (R87). -/
theorem classify_cases (action : HandlerAction) (f : RxFrame) (s : State) :
    classify action f s = s.bump .foreignTrunk ∨ classify action f s = s ∨ (∃ r, classify action f s = s.hand r) ∨
      ∃ e t, screen f s = .passed e ∧ action e.mode f s = .ok t ∧ classify action f s = t := by
  have hr : ∀ mode r, s.handRefusal mode r = s ∨ s.handRefusal mode r = s.hand r := by
    intro mode r; cases mode <;> simp [State.handRefusal]
  unfold classify
  split
  · exact .inl rfl
  · exact .inr (.inr (.inl ⟨_, rfl⟩))
  · next mode r _ =>
    rcases hr mode r with h | h
    · exact .inr (.inl h)
    · exact .inr (.inr (.inl ⟨r, h⟩))
  · next e he =>
    split
    · next r _ =>
      rcases hr e.mode (refusalRecord f .content r.reason r.table r.index r.figures) with h | h
      · exact .inr (.inl h)
      · exact .inr (.inr (.inl ⟨_, h⟩))
    · next t ht => exact .inr (.inr (.inr ⟨e, t, he, ht, rfl⟩))

/-- A property that survives the freeing of the entry, a counter, and a record handed over survives the taking of a frame when the
handler keeps it. -/
theorem takeFrame_induct {P : State → Prop} {s : State} {admits : RxFrame → State → Bool} {action : HandlerAction}
    (hs : P s) (hpop : ∀ rest, (∃ f, s.tp.queue = f :: rest) → P (s.setRxQueue rest))
    (hbump : ∀ u : State, P u → P (u.bump .foreignTrunk)) (hhand : ∀ (u : State) r, P u → P (u.hand r))
    (hact : ∀ (u : State) f e t, P u → admits f s = true → (∃ rest, s.tp.queue = f :: rest ∧ u = s.setRxQueue rest) →
      screen f u = .passed e → action e.mode f u = .ok t → P t) : P (s.takeFrame admits action) := by
  rcases takeFrame_cases s admits action with h | ⟨f, rest, hq, -, ha, h⟩
  · rw [h]; exact hs
  · rw [h]
    have hu := hpop rest ⟨f, hq⟩
    rcases classify_cases action f (s.setRxQueue rest) with h | h | ⟨r, h⟩ | ⟨e, t, he, ht, h⟩
    · rw [h]; exact hbump _ hu
    · rw [h]; exact hu
    · rw [h]; exact hhand _ _ hu
    · rw [h]; exact hact _ f e t hu ha ⟨rest, hq, rfl⟩ he ht

/-! ### What each handler answers -/

variable {mode : ReportMode} {f : RxFrame} {s t : State}

theorem withAccount_ok {act : Account → Except Reject State} (h : withAccount f s act = .ok t) :
    t = s ∨ ∃ a, s.account f.slot = some a ∧ act a = .ok t := by
  unfold withAccount at h
  split at h
  · next a ha => exact .inr ⟨a, ha, h⟩
  · cases h; exact .inl rfl

theorem actUnknown_ok (h : actUnknown mode f s = .ok t) : False := by
  simp only [actUnknown, reject, rejectLength] at h
  split at h
  · split at h <;> cases h
  · cases h

theorem actDiscard_ok (h : actDiscard mode f s = .ok t) :
    t = s.handReceipt mode f.tag f.slot (.discard f.cls f.count) := by
  cases h; rfl

theorem actSetIdentity_ok (h : actSetIdentity mode f s = .ok t) :
    ∃ id rank b, id ≠ 0 ∧ id < 65535 ∧ rank ≤ 255 ∧
      t = { s with ret := { s.ret with nodeId := id, rank := rank } }.handReceipt mode f.tag f.slot b := by
  simp only [actSetIdentity, reject, rejectLength] at h
  split at h
  · cases h
  split at h
  · cases h
  next hid =>
  split at h
  · cases h
  cases h
  have h1 : field f.payload 1 2 < 65536 := field_lt f.payload 1 2
  have h2 : byteAt f.payload 3 < 256 := byteAt_lt f.payload 3
  exact ⟨_, _, _, fun e => hid (.inl e), by omega, by omega, rfl⟩

theorem actSetConfig_ok (h : actSetConfig mode f s = .ok t) :
    ∃ c, c.inRange = true ∧ t = { s with ret := { s.ret with config := c } }.handReceipt mode f.tag f.slot (.setConfig c) := by
  simp only [actSetConfig, reject, rejectLength] at h
  split at h
  · cases h
  split at h
  · cases h
  next hc =>
  cases h
  exact ⟨_, by simpa using hc, rfl⟩

theorem actSetCycle_ok (h : actSetCycle mode f s = .ok t) :
    ∃ p b, p.inRange = true ∧ t = { s with fp := { s.fp with shadow := some p } }.handReceipt mode f.tag f.slot b := by
  simp only [actSetCycle, reject, rejectLength] at h
  split at h
  · cases h
  split at h
  · cases h
  next hc =>
  cases h
  exact ⟨_, _, by simpa using hc, rfl⟩

theorem actSetMode_ok (h : actSetMode mode f s = .ok t) :
    ∃ m b, t = { s with ret := { s.ret with requested := m } }.handReceipt mode f.tag f.slot b := by
  simp only [actSetMode, reject, rejectLength] at h
  split at h
  · cases h
  split at h
  · cases h
  cases h
  exact ⟨_, _, rfl⟩

theorem actFieldReset_ok (h : actFieldReset mode f s = .ok t) :
    ∃ b, t = (slotIndices.foldl State.dropProbe s.emptyCallers.silenceLinks).handReceipt mode f.tag f.slot b := by
  simp only [actFieldReset, rejectLength, reject] at h
  split at h
  · cases h
  cases h
  exact ⟨_, rfl⟩

theorem actClearEscalation_ok (h : actClearEscalation mode f s = .ok t) :
    ∃ b, t = { s with ru := { s.ru with escalated := false } }.handReceipt mode f.tag f.slot b := by
  simp only [actClearEscalation, reject, rejectLength] at h
  split at h
  · cases h
  split at h
  · cases h
  cases h
  exact ⟨_, rfl⟩

theorem actSetAlarmMask_ok (h : actSetAlarmMask mode f s = .ok t) :
    ∃ m, t = { s with ru := { s.ru with mask := m } }.handReceipt mode f.tag f.slot (.setAlarmMask m) := by
  simp only [actSetAlarmMask, reject, rejectLength] at h
  split at h
  · cases h
  cases h
  exact ⟨_, rfl⟩

theorem actReadStatus_ok (h : actReadStatus mode f s = .ok t) :
    ∃ r, t = s.hand r ∨ ∃ a m, t = (s.clearStatus a m).hand r := by
  simp only [actReadStatus, reject, rejectLength] at h
  split at h
  · cases h; exact ⟨_, .inl rfl⟩
  split at h
  · cases h; exact ⟨_, .inr ⟨_, _, rfl⟩⟩
  · cases h

theorem actSetTime_ok (h : actSetTime mode f s = .ok t) :
    ∃ day second b, day ≤ 65535 ∧ second < 86400 ∧
      t = { s with ret := { s.ret with clock := ⟨true, day, second⟩ } }.handReceipt mode f.tag f.slot b := by
  simp only [actSetTime, reject, rejectLength] at h
  split at h
  · cases h
  split at h
  · cases h
  next hs =>
  split at h
  · cases h
  split at h
  · cases h
  cases h
  have h1 : field f.payload 0 2 < 65536 := field_lt f.payload 0 2
  exact ⟨_, _, _, by omega, by unfold secondsOfDay at hs; omega, rfl⟩

theorem actReadCounters_ok (h : actReadCounters mode f s = .ok t) :
    ∃ r, t = s.hand r ∨ t = { s with counters := {} }.hand r ∨ t = (s.mapLinkVol f.slot LinkVolatile.zeroCounters).hand r := by
  simp only [actReadCounters, reject, rejectLength] at h
  split at h
  · split at h
    · cases h
    · split at h
      · cases h; exact ⟨_, .inr (.inl rfl)⟩
      · cases h; exact ⟨_, .inl rfl⟩
  · split at h
    · cases h
    · split at h
      · cases h; exact ⟨_, .inr (.inr rfl)⟩
      · cases h; exact ⟨_, .inl rfl⟩

theorem actResetNode_ok (h : actResetNode mode f s = .ok t) : ∃ kind, t = s.start kind .command f.tag := by
  simp only [actResetNode, reject, rejectLength] at h
  split at h
  · cases h
  split at h
  · cases h
  cases h
  exact ⟨_, rfl⟩

theorem namedEntry_ok {p : List Byte} {e : Entry} (h : namedEntry p = some e) : e.ceiling ≤ 3 ∧ e.fixed = false := by
  unfold namedEntry at h
  split at h
  · split at h
    · next hc => cases h; exact ⟨hc, rfl⟩
    · cases h
  · cases h

/-- What LOAD_DISPOSITION writes (R75, R76): to a class whose entry is not fixed, an entry or none, and a limit in its range. -/
theorem actLoadDisposition_ok (h : actLoadDisposition mode f s = .ok t) :
    ∃ (cls : Nat) (w : Option Entry) (limit : Option Nat) (b : ReceiptBody), cls ≤ 63 ∧
      (∀ e, s.entry cls = some e → e.fixed = false) ∧ (∀ l, limit = some l → 4 ≤ l ∧ l ≤ 64) ∧
      (∀ e, w = some e → e.ceiling ≤ 3 ∧ e.fixed = false ∧ e.weakensControl = false) ∧
      t = (s.writeDisposition cls w limit).handReceipt mode f.tag f.slot b := by
  simp only [actLoadDisposition, reject, rejectLength] at h
  split at h
  · cases h
  split at h
  · cases h
  next h1 =>
  split at h
  · cases h
  next h2 =>
  split at h
  · cases h
  split at h
  · cases h
  next h4 =>
  split at h
  · cases h
  next h5 =>
  cases h
  refine ⟨byteAt f.payload 0, _, f.namedLimit, _, by omega, ?_, ?_, ?_, rfl⟩
  · intro e he
    simpa [he] using h2
  · intro l hl
    simp [hl] at h5; omega
  · intro e he
    rw [he] at h4
    have hn : namedEntry f.payload = some e := by
      unfold writtenEntry at he
      split at he
      · exact he
      · cases he
    exact ⟨(namedEntry_ok hn).1, (namedEntry_ok hn).2, by simpa using h4⟩

theorem actLoadPlan_ok (h : actLoadPlan mode f s = .ok t) :
    ∃ n p b, n ≤ 15 ∧ p.useCount = ((s.plan n).map Plan.useCount).getD 0 ∧ p.creditCeiling ≤ maxWh ∧
      t = (s.setPlan n (some p)).handReceipt mode f.tag f.slot b := by
  simp only [actLoadPlan, reject, rejectLength] at h
  split at h
  · cases h
  split at h
  · cases h
  next hn =>
  split at h
  · cases h
  cases h
  refine ⟨_, _, _, by omega, rfl, ?_, rfl⟩
  have h1 : field f.payload 21 3 < 16777216 := field_lt f.payload 21 3
  simp only [PlanPayload.plan, PlanPayload.read, maxWh]; omega

theorem actUnloadPlan_ok (h : actUnloadPlan mode f s = .ok t) :
    ∃ n p b, n ≤ 15 ∧ s.plan n = some p ∧ p.useCount = 0 ∧ t = (s.setPlan n none).handReceipt mode f.tag f.slot b := by
  simp only [actUnloadPlan, reject, rejectLength] at h
  split at h
  · cases h
  split at h
  · cases h
  split at h
  · cases h
  next p hp =>
  split at h
  · cases h
  cases h
  exact ⟨_, p, _, by omega, hp, by omega, rfl⟩

theorem actReadPlan_ok (h : actReadPlan mode f s = .ok t) : ∃ r, t = s.hand r := by
  simp only [actReadPlan, reject, rejectLength] at h
  split at h
  · cases h
  split at h
  · cases h
  cases h
  exact ⟨_, rfl⟩

theorem actLoadAccount_ok (h : actLoadAccount mode f s = .ok t) :
    ∃ (a : Account) (p : Plan) (b : ReceiptBody), a.kitId ≠ 0 ∧ (∀ k x, s.account k = some x → x.kitId ≠ a.kitId) ∧
      s.plan a.plan = some p ∧ (a.balance = 0 ∨ a.arrears = 0) ∧ a.balance ≤ p.creditCeiling ∧ a.arrears ≤ maxArrears ∧
      a.pendingGrant = none ∧
      t = ((((s.setAccount f.slot (some a)).mapUseCount a.plan (· + 1)).mapLink f.slot fun l =>
        { l with history := [], figures := none }).mapLinkVol f.slot LinkVolatile.zeroCounters).handReceipt mode f.tag f.slot
          b := by
  simp only [actLoadAccount, reject, rejectLength] at h
  split at h
  · cases h
  split at h
  · cases h
  next hk =>
  split at h
  · cases h
  next p hp =>
  split at h
  · cases h
  next hd =>
  split at h
  · cases h
  next hb =>
  split at h
  · cases h
  next hc =>
  cases h
  refine ⟨(AccountPayload.read f.payload).account s.ret.clock, p, _, hk, ?_, hp, ?_, ?_, ?_, rfl, rfl⟩
  · intro k x hx
    have : s.slotOfKit (AccountPayload.read f.payload).kitId = none := by simpa using hd
    exact slotOfKit_none this hx
  · simp only [AccountPayload.account]; omega
  · simp only [AccountPayload.account]; omega
  · have : field f.payload 8 2 < 65536 := field_lt f.payload 8 2
    simp only [AccountPayload.account, AccountPayload.read, maxArrears]; omega

theorem actUnloadAccount_ok (h : actUnloadAccount mode f s = .ok t) :
    t = s ∨ ∃ a rs, s.account f.slot = some a ∧
      t = (((s.endLink f.slot).mapUseCount a.plan (· - 1)).setAccount f.slot none).handAll rs := by
  simp only [actUnloadAccount, reject, rejectLength] at h
  split at h
  · cases h
  rcases withAccount_ok h with h | ⟨a, ha, h⟩
  · exact .inl h
  · cases h; exact .inr ⟨a, _, ha, rfl⟩

/-- The forms of an account that a SET_ACCOUNT_STATE subcommand other than CHANGE_PLAN writes (R10 to R12). -/
inductive StateWrite (a : Account) : Account → Prop where
  | suspend : StateWrite a (a.enterHold .suspended).1
  | resume (h : a.state = .suspended) : StateWrite a a.resume
  | clear (b : Bool) (h : a.state = .quarantined) : StateWrite a (a.clearQuarantine b)

theorem actSuspend_ok (h : actSuspend mode f s = .ok t) :
    t = s ∨ ∃ a b cmd ns, s.account f.slot = some a ∧ StateWrite a b ∧ t = s.applyState mode f cmd a.state b ns := by
  simp only [actSuspend, reject, rejectLength] at h
  split at h
  · cases h
  rcases withAccount_ok h with h | ⟨a, ha, h⟩
  · exact .inl h
  · split at h <;> cases h
    all_goals exact .inr ⟨a, _, _, _, ha, .suspend, rfl⟩

theorem actResume_ok (h : actResume mode f s = .ok t) :
    t = s ∨ ∃ a b cmd ns, s.account f.slot = some a ∧ StateWrite a b ∧ t = s.applyState mode f cmd a.state b ns := by
  simp only [actResume, reject, rejectLength] at h
  split at h
  · cases h
  rcases withAccount_ok h with h | ⟨a, ha, h⟩
  · exact .inl h
  · split at h <;> cases h
    next hs => exact .inr ⟨a, _, _, _, ha, .resume hs, rfl⟩

theorem actClearQuarantine_ok (h : actClearQuarantine mode f s = .ok t) :
    t = s ∨ ∃ a b cmd ns, s.account f.slot = some a ∧ StateWrite a b ∧ t = s.applyState mode f cmd a.state b ns := by
  simp only [actClearQuarantine, reject, rejectLength] at h
  split at h
  · cases h
  rcases withAccount_ok h with h | ⟨a, ha, h⟩
  · exact .inl h
  · split at h <;> cases h
    next hs => exact .inr ⟨a, _, _, _, ha, .clear _ hs, rfl⟩

theorem actChangePlan_ok (h : actChangePlan mode f s = .ok t) :
    t = s ∨ ∃ a n, s.account f.slot = some a ∧ (s.plan n).isSome ∧
      ((n = a.plan ∧ t = s.applyState mode f .changePlan a.state a []) ∨
       (n ≠ a.plan ∧ t = ((s.mapUseCount a.plan (· - 1)).mapUseCount n (· + 1)).applyState mode f .changePlan a.state
         { a with plan := n } [])) := by
  simp only [actChangePlan, reject, rejectLength] at h
  split at h
  · cases h
  rcases withAccount_ok h with h | ⟨a, ha, h⟩
  · exact .inl h
  · split at h
    · cases h
    next hn =>
    have hn : (s.plan f.stateArgument).isSome := by
      cases hp : s.plan f.stateArgument <;> simp_all
    split at h
    · next he => cases h; exact .inr ⟨a, _, ha, hn, .inl ⟨he, rfl⟩⟩
    · next he => cases h; exact .inr ⟨a, _, ha, hn, .inr ⟨he, rfl⟩⟩

theorem actReadAccount_ok (h : actReadAccount mode f s = .ok t) :
    t = s ∨ ∃ a r, s.account f.slot = some a ∧
      (t = s.hand r ∨ t = (s.setAccount f.slot (some { a with latch := {} })).hand r) := by
  simp only [actReadAccount, reject, rejectLength] at h
  split at h
  · cases h
  rcases withAccount_ok h with h | ⟨a, ha, h⟩
  · exact .inl h
  · split at h
    · cases h; exact .inr ⟨a, _, ha, .inr rfl⟩
    · cases h; exact .inr ⟨a, _, ha, .inl rfl⟩

theorem actApplyVoucher_ok (h : actApplyVoucher mode f s = .ok t) :
    t = s ∨ ∃ a v c b, s.account f.slot = some a ∧ a.convert (s.planOf a) s.ret.clock v = .ok c ∧
      t = (s.setAccount f.slot (some (a.commitVoucher v c))).handReceipt mode f.tag f.slot b := by
  simp only [actApplyVoucher, rejectLengthWith] at h
  rcases withAccount_ok h with h | ⟨a, ha, h⟩
  · exact .inl h
  · split at h
    · cases h
    split at h
    · cases h
    · next c hc => cases h; exact .inr ⟨a, _, c, _, ha, hc, rfl⟩

theorem actAdjustCredit_ok (h : actAdjustCredit mode f s = .ok t) :
    t = s ∨ ∃ a d g j b rs, s.account f.slot = some a ∧ a.adjust (s.planOf a) d g = .ok j ∧
      t = ((s.setAccount f.slot (some (a.commitAdjustment j))).handReceipt mode f.tag f.slot b).handAll rs := by
  simp only [actAdjustCredit, rejectLengthWith] at h
  rcases withAccount_ok h with h | ⟨a, ha, h⟩
  · exact .inl h
  · split at h
    · cases h
    split at h
    · cases h
    · next j hj => cases h; exact .inr ⟨a, _, _, j, _, _, ha, hj, rfl⟩

theorem actRelayToKit_ok (h : actRelayToKit mode f s = .ok t) :
    t = s ∨ ∃ a r b, s.account f.slot = some a ∧
      t = (s.setAccount f.slot (some { a with relay := some r })).handReceipt mode f.tag f.slot b := by
  simp only [actRelayToKit, reject] at h
  rcases withAccount_ok h with h | ⟨a, ha, h⟩
  · exact .inl h
  · split at h
    · cases h
    split at h
    · cases h
    cases h
    exact .inr ⟨a, _, _, ha, rfl⟩

theorem actProbeKit_ok (h : actProbeKit mode f s = .ok t) :
    ∃ p b, t = (s.mapLinkVol f.slot fun v => { v with probe := some p }).handReceipt mode f.tag f.slot b := by
  simp only [actProbeKit, reject, rejectLength] at h
  split at h
  · cases h
  split at h
  · cases h
  split at h
  · cases h
  split at h
  · cases h
  cases h
  exact ⟨_, _, rfl⟩

end Sys2Proof.Machine
end

