-- ==== Sys2Proof/Tests/Slice0.lean ====
section
/-!
SUPPORT. Tests: the ill-formed commands, at most two small tests for each command, mostly from the spec's worked examples (each
names its source), and for each statement a theorem that shows a state and operands that meet its hypotheses.
-/

open Sys2Proof Sys2Proof.Machine

namespace Sys2Proof.Tests

set_option Elab.async false

/-! ### Helpers -/

/-- The command answers a next state of which `p` holds. -/
def after (o : Host.Outcome State Fault Refusal) (p : State → Bool) : Bool :=
  match o with
  | .next t => p t
  | .fault _ | .refused _ => false

/-- The state with the one frame `f` in the receive queue. -/
def State.waiting (s : State) (f : RxFrame) : State := { s with tp := { s.tp with queue := [f] } }

/-- A value in `w` bytes, for payloads. -/
abbrev be (w v : Nat) : List Byte := beBytes w v

/-- A frame to the node whose id in effect is 0, as it is after a cold start. -/
def frame (authority cls slot : Nat) (payload : List Byte) : RxFrame := RxFrame.make 0 authority cls 7730 slot payload

/-- The command takes the frame `f` in the state `s` and answers a next state of which `p` holds. -/
def taken (c : Instr) (s : State) (f : RxFrame) (p : State → Bool) : Bool := after (exec c (State.waiting s f)) p

/-- The report record at the tail of the Report Queue. -/
def lastRecord (s : State) : Option Body := s.ru.queue.getLast?.map Report.body

/-- The kit id of the tests. -/
abbrev kit : Nat := 40117552

/-- The plan of the worked conversions (02 section 2.3). -/
def plan3 : Plan := ⟨150, [1200, 1500, 1800], [2000, 6000], 4500, 30, 300, 200, 1, 1000, 2000, 1⟩

/-- The account of the worked conversions, before voucher 78. -/
def account3 : Account :=
  { state := .active, kitId := kit, plan := 3, balance := 120, allowance := 0, arrears := 0, carry := 900
    periodPurchase := 1700, periodStart := 0, window := some ⟨77, 0⟩, q := 0, pendingGrant := none, withdrawn := none
    revokeDue := false, lockNoticeDue := false, relay := none, baseline := none, rebaseDue := false, latch := {}
    cause := none, boundOnce := true }

/-- The state after reset with plan 3 present and the account `a` at slot 131. -/
def holding (a : Account) : State := (State.reset.setPlan 3 (some plan3)).setAccount 131 (some a)

/-- The command takes the frame `f` in the state `s` (Safety.lean) by an entry with `q`, as a check. -/
def meetsCheck (c : Instr) (s : State) (f : RxFrame) (q : Entry → Prop) [DecidablePred q] : Bool :=
  s.powered && match screen f (State.waiting s f) with
    | .passed e => commandFor e.handler f == c && decide (q e)
    | .foreign | .refused _ | .refusedBy _ _ => false

/-- A statement's hypotheses are met: the command takes the frame `f` in the state `s` by an entry with `q`. -/
def Meets (c : Instr) (s : State) (f : RxFrame) (q : Entry → Prop) : Prop := ∃ e, Takes c (State.waiting s f) f [] e ∧ q e

theorem meets {c : Instr} {s : State} {f : RxFrame} {q : Entry → Prop} [DecidablePred q] (h : meetsCheck c s f q = true) :
    Meets c s f q := by
  unfold meetsCheck at h
  simp only [Bool.and_eq_true] at h
  obtain ⟨hp, h⟩ := h
  split at h
  · next e he =>
    simp only [Bool.and_eq_true, decide_eq_true_eq, beq_iff_eq] at h
    exact ⟨e, ⟨⟨hp, rfl, he⟩, h.1⟩, h.2⟩
  all_goals cases h

/-! ### Ill-formed commands (WellFormed.lean) -/

theorem test_wf_content_byte_is_no_delimiter :
    (Instr.frameBegin 0xA5).wf = false ∧ (Instr.contentByte 0xA5).wf = false ∧ (Instr.oversizeByte 0xA5).wf = false ∧
    (Instr.contentByte 0x5A).wf = true := by decide

theorem test_wf_yield_bit : (Instr.beaconYield 24).wf = false ∧ (Instr.beaconYield 23).wf = true := by decide

theorem test_wf_header_block_length :
    (Instr.fieldHeaderBlock 0 ⟨List.replicate 10 0, false⟩).wf = false ∧
    (Instr.fieldHeaderBlock 0 ⟨List.replicate 9 0, false⟩).wf = true := by
  decide

theorem test_wf_payload_block_count :
    (Instr.fieldFrameEnd (List.replicate 5 (List.replicate 9 0))).wf = false ∧
    (Instr.carrierLossEnd (List.replicate 5 (List.replicate 9 0))).wf = false ∧
    (Instr.cycleStart (List.replicate 5 (List.replicate 9 0))).wf = false ∧
    (Instr.slotStart (List.replicate 5 (List.replicate 9 0))).wf = false ∧
    (Instr.gapStart (List.replicate 5 (List.replicate 9 0))).wf = false := by decide

theorem test_wf_payload_block_length :
    (Instr.fieldFrameEnd [List.replicate 10 0]).wf = false ∧ (Instr.carrierLossEnd [List.replicate 8 0]).wf = false ∧
    (Instr.cycleStart [[]]).wf = false ∧ (Instr.slotStart [List.replicate 12 0]).wf = false ∧
    (Instr.gapStart [List.replicate 10 0]).wf = false ∧ (Instr.fieldFrameEnd [List.replicate 11 0]).wf = true := by decide

/-! ### Trunk reception (05 section 5.7) -/

/-- The receiver of section 5.7 with `n` entries occupied. -/
def occupied (n : Nat) (r : Receiver) : State :=
  { State.reset with tp := { State.reset.tp with receiver := r, queue := List.replicate n (frame 0 0 0 []) } }

/-- Frame 1 begins: the last free entry is reserved and receive-ready falls. -/
theorem test_frameBegin_reserves_last_entry :
    after (exec (.frameBegin 0x0B) (occupied 15 .open)) (fun t => t.tp.used == 16 && !t.receiveReady) = true := by
  decide +kernel

/-- Frame 2 begins: no entry is free, OVERRUN counts 1. -/
theorem test_frameBegin_overrun :
    after (exec (.frameBegin 0x0B) (occupied 16 .open)) (fun t => t.tp.receiver == .discard && t.counters.overrun == 1)
      = true := by decide +kernel

/-- Frame 3: 50 ms pass without a byte. -/
theorem test_gapExpiry_drops_frame :
    after (exec .gapExpiry (occupied 15 (.receive ⟨[], 1, true, false⟩)))
      (fun t => t.tp.receiver == .hunt && t.counters.gap == 1 && t.receiveReady) = true := by decide +kernel

/-- The rest of frame 3 arrives in HUNT and is not counted again. -/
theorem test_contentByte_ignored_in_hunt :
    after (exec (.contentByte 0x0B) (occupied 15 .hunt)) (fun t => t.tp == (occupied 15 .hunt).tp) = true := by decide +kernel

/-- The pair 5Ah 85h stands for A5h (12, R186). -/
theorem test_contentByte_unescapes :
    after (exec (.contentByte 0x85) (occupied 0 (.receive ⟨[], 1, true, false⟩)))
      (fun t => t.tp.receiver == .receive ⟨[0xA5], 1, false, false⟩) = true := by decide +kernel

/-- A 61st content byte drops the frame (R94). -/
theorem test_oversizeByte_discards :
    after (exec (.oversizeByte 0x0B) (occupied 3 (.receive ⟨List.replicate 60 1, 60, false, false⟩)))
      (fun t => t.tp.receiver == .discard && t.counters.oversize == 1) = true := by decide +kernel

/-- Frame 4 closes with a CRC mismatch: counted, and the alarm raised. -/
theorem test_frameClose_crc_mismatch :
    after (exec .frameClose (occupied 15 (.receive ⟨List.replicate 12 0, 12, false, false⟩)))
      (fun t => t.tp.receiver == .open && t.tp.queue.length == 15 && t.counters.trunkCheck == 1
        && AlarmCause.trunkCheck.inFlags t.ru.alarms) = true := by decide +kernel

/-- Frame 6 closes with p = 4, L = 10: accepted. Its CRC-32 is the model's; R186 gives no check value. -/
theorem test_frameClose_accepts_short_payload :
    let content : List Byte := [0, 0, 0, 0, 0, 0, 0, 10, 1, 2, 3, 4]
    after (exec .frameClose (occupied 15 (.receive
        ⟨content ++ beBytes 4 (crc32 content).toNat, 16, false, false⟩)))
      (fun t => t.tp.queue.length == 16 && !t.receiveReady && (t.tp.queue.getLast?.map RxFrame.count) == some 4) = true := by
  decide +kernel

/-- A delimiter ends frame 2: DISCARD goes to OPEN with nothing counted. -/
theorem test_delimiter_reopens :
    after (exec .delimiter (occupied 15 .discard)) (fun t => t.tp.receiver == .open && t.counters == {}) = true := by
  decide +kernel

/-- The empty message's CRC-32 register, complemented, is 0 after a preset of all ones; the escapes of R186. -/
theorem test_escapes : [(0xA5 : Byte), 0x5A, 0x01].flatMap escapeOne = [0x5A, 0x85, 0x5A, 0x7A, 0x01] ∧ crc32 [] = 0 := by
  decide +kernel

/-! ### Trunk transmission (05 section 5.8) -/

/-- A record of no matter. -/
def note (slot : Nat) : Report := ⟨0, slot, .relayDone⟩

/-- The QUARANTINE of slot 57 in the holder is taken before the older record of the queue. -/
theorem test_transmitTake_prefers_holder :
    after (exec (.transmitTake true) { State.reset with ru := { queue := [note 92], holder := some (note 57) } })
      (fun t => t.ru.holder.isNone && t.ru.queue == [note 92] && match t.tp.transmitter with
        | .sending r _ => r == note 57
        | .idle => false) = true := by decide +kernel

/-- Modem-ready deasserted: nothing is taken. -/
theorem test_transmitTake_waits :
    after (exec (.transmitTake false) { State.reset with ru := { queue := [note 92] } })
      (fun t => t.ru.queue == [note 92] && t.tp.transmitter == .idle) = true := by decide +kernel

theorem test_reportFrameSent_idles :
    after (exec .reportFrameSent { State.reset with tp := { State.reset.tp with transmitter := .sending (note 1) [] } })
      (fun t => t.tp.transmitter == .idle) = true := by decide +kernel

/-! ### The Frame Classifier (04) -/

/-- A frame for another node is dropped and counted (R78). -/
theorem test_frameTaken_foreign :
    taken .frameTaken State.reset (RxFrame.make 2900 0 0 1 0 []) (fun t => t.counters.foreignTrunk == 1 && t.tp.queue == [])
      = true := by decide +kernel

/-- An unknown NODE_CONTROL subcommand is refused SUBCOMMAND (R178); code 12 of stage 5 (12). -/
theorem test_frameTaken_subcommand :
    taken .frameTaken State.reset (frame 0 0 0 [10]) (fun t => (lastRecord t).map (fun b => b.bytes.take 4) ==
      some [5, 12, 0, 0]) = true := by decide +kernel

/-- 04 section 4.6, frame C: class 16 becomes a voucher class with ceiling 2 and REFUSALS_ONLY, and the limit 17. -/
theorem test_loadDisposition_writes :
    taken .loadDisposition State.reset (frame 0 1 0 [16, 1, 10, 2, 2, 17]) (fun t =>
      t.entry 16 == some ⟨.applyVoucher, 2, .refusalsOnly, false⟩ && t.ret.limit == 17) = true := by decide +kernel

/-- A fixed entry is refused (R75): stage 5, reason 3, table DISPOSITION, index 2. -/
theorem test_loadDisposition_fixed :
    taken .loadDisposition State.reset (frame 0 1 0 [2, 0, 0, 0, 0]) (fun t =>
      (lastRecord t).map (fun b => b.bytes.take 5) == some [5, 3, 1, 0, 2]) = true := by decide +kernel

/-- Class 15's default mode is SILENT, so DISCARD leaves no RECEIPT (R74, R84). -/
theorem test_discard_silent :
    taken .discard State.reset (frame 3 15 9 [1, 2]) (fun t => t.ru == State.reset.ru && t.tp.queue == []) = true := by
  decide +kernel

/-! ### Node Control (06, 07, 10, 11) -/

theorem test_setIdentity_configures :
    taken .setIdentity State.reset (frame 0 0 0 [1, 0x0B, 0xFF, 12]) (fun t =>
      t.ret.nodeId == 3071 && t.ret.rank == 12 && t.fp.idInEffect == 0) = true := by decide +kernel

theorem test_setConfig_writes :
    taken .setConfig State.reset (frame 0 0 0 [2, 6, 1, 8, 16]) (fun t => t.ret.config == ⟨6, 1, 8, 16⟩) = true := by
  decide +kernel

/-- The bring-up limit is at least 8 (R180). -/
theorem test_setConfig_refuses :
    taken .setConfig State.reset (frame 0 0 0 [2, 6, 1, 7, 16]) (fun t => t.ret.config == ⟨4, 12, 32, 4⟩) = true := by
  decide +kernel

/-- A cold start by command: the RESTART carries cause COMMAND and the frame's tag (R185). -/
theorem test_resetNode_cold :
    taken .resetNode State.reset (frame 0 0 0 [3, 1]) (fun t =>
      (t.ru.queue.map fun r => (r.tag, r.body.code)) == [(7730, 9), (0, 15), (0, 15)] && t.tp.queue == []) = true := by
  decide +kernel

/-- A warm start raises WARM_RESTART alone (R184). -/
theorem test_resetNode_warm :
    taken .resetNode State.reset (frame 0 0 0 [3, 2]) (fun t =>
      t.ru.alarms == 2 && (t.ru.queue.map fun r => (r.tag, r.body.code)) == [(7730, 9), (0, 15)]) = true := by decide +kernel

/-- 06 section 6.2: 300 ms, 4 slots, 10 s, 150 ms are held as the shadow; the active set stays. -/
theorem test_setCycle_shadow :
    taken .setCycle State.reset (frame 0 0 0 ([4] ++ be 2 300 ++ [4] ++ be 2 10 ++ be 2 150)) (fun t =>
      t.fp.shadow == some ⟨300, 4, 10, 150⟩ && t.ret.active == ⟨500, 6, 40, 200⟩) = true := by decide +kernel

theorem test_setMode_requests :
    taken .setMode State.reset (frame 0 0 0 [5, 1]) (fun t => t.ret.requested == .run && t.fp.effective == .quiet) = true := by
  decide +kernel

/-- Slot 131 with a link record, volatile and retained. -/
def linked (s : State) (l : LinkRetained) (v : LinkVolatile) : State := (s.setLink 131 l).setLinkVol 131 v

/-- The links' part of FIELD_RESET: a BOUND link becomes SILENT and keeps its kit, one in BRINGUP becomes ABSENT (R137). -/
theorem test_fieldReset_links :
    let s := linked State.reset { state := .bound, kitId := some kit } {}
    let t := (s.setLink 132 { state := .bringup .offered, kitId := some 5, placement := some ⟨0, 0, 6⟩ }).silenceLinks
    ((t.link 131).state == .silent && (t.link 131).kitId == some kit && t.link 132 == {}) = true := by decide +kernel

/-- A FIELD_RESET payload of two bytes is refused LENGTH (R83). -/
theorem test_fieldReset_length :
    taken .fieldReset State.reset (frame 0 0 0 [6, 0]) (fun t =>
      (lastRecord t).map (fun b => b.bytes.take 3) == some [5, 1, 0]) = true := by decide +kernel

/-- CLEAR_ESCALATION is refused while the holder is occupied (R171). -/
theorem test_clearEscalation_refused :
    taken .clearEscalation { State.reset with ru := { holder := some (note 57), escalated := true } } (frame 0 0 0 [7])
      (fun t => t.ru.escalated) = true := by decide +kernel

theorem test_clearEscalation_clears :
    taken .clearEscalation { State.reset with ru := { escalated := true } } (frame 0 0 0 [7])
      (fun t => !t.ru.escalated && lastRecord t == some (.receipt (.clearEscalation true))) = true := by decide +kernel

theorem test_setAlarmMask_takes_nine_flags :
    taken .setAlarmMask State.reset (frame 0 0 0 [8, 1, 4]) (fun t => t.ru.mask == 0x104) = true := by decide +kernel

/-- READ_STATUS clears COLD_RESTART and the REFUSAL tally after it has copied them (R176). -/
theorem test_readStatus_copies_then_clears :
    taken .readStatus { State.reset with ru := { alarms := 5, tallies := { refusal := 9, reply := 3 } } }
      (frame 0 0 0 [9, 1, 0, 1, 8]) (fun t => t.ru.alarms == 4 && t.ru.tallies == { reply := 3 } &&
        match lastRecord t with
        | some (.nodeStatus b) => b.alarms == 5 && b.tallies.refusal == 9
        | _ => false) = true := by decide +kernel

theorem test_setTime_sets :
    taken .setTime State.reset (frame 0 2 0 (be 2 19380 ++ be 3 30000 ++ [0])) (fun t =>
      t.ret.clock == ⟨true, 19380, 30000⟩) = true := by decide +kernel

/-- A day that goes back is refused TIME_REGRESS, code 33 (R182). -/
theorem test_setTime_regress :
    taken .setTime { State.reset with ret := { State.reset.ret with clock := ⟨true, 19380, 0⟩ } }
      (frame 0 2 0 (be 2 19379 ++ be 3 0 ++ [0])) (fun t => t.ret.clock == ⟨true, 19380, 0⟩ &&
        (lastRecord t).map (fun b => b.bytes.take 2) == some [5, 33]) = true := by decide +kernel

/-- READ_COUNTERS of the node with the clear option (R156, R158). -/
theorem test_readCounters_clears :
    taken .readCounters { State.reset with counters := { gap := 3 } } (frame 1 3 0 [1]) (fun t =>
      t.counters == {} && lastRecord t == some (.nodeCounters { gap := 3 } 65535)) = true := by decide +kernel

/-! ### Plans (02) -/

/-- The LOAD_PLAN payload of plan 3 (02 section 2.3). -/
def planPayload (n : Nat) : List Byte :=
  be 1 n ++ be 2 150 ++ be 1 3 ++ be 2 1200 ++ be 2 1500 ++ be 2 1800 ++ be 2 0 ++ be 3 2000 ++ be 3 6000 ++ be 3 0
    ++ be 3 4500 ++ be 1 30 ++ be 2 300 ++ be 2 200 ++ be 1 1 ++ be 2 1000 ++ be 2 2000

theorem test_loadPlan_reads_fields :
    taken .loadPlan State.reset (frame 0 4 0 (planPayload 3)) (fun t => t.plan 3 == some { plan3 with useCount := 0 }) = true := by
  decide +kernel

theorem test_unloadPlan_in_use :
    taken .unloadPlan (holding account3) (frame 0 5 0 [3]) (fun t => t.plan 3 == some plan3 &&
      (lastRecord t).map (fun b => b.bytes.take 5) == some [5, 16, 3, 0, 3]) = true := by decide +kernel

theorem test_readPlan_absent :
    taken .readPlan State.reset (frame 2 14 0 [15]) (fun t =>
      (lastRecord t).map Body.bytes == some (15 :: List.replicate 36 0)) = true := by decide +kernel

/-- A plan number above 15: stage 5, reason 14, and table NONE, index 0, as R29 names none (R83). -/
theorem test_readPlan_number :
    taken .readPlan State.reset (frame 2 14 0 [16]) (fun t => (lastRecord t).map (fun b => b.bytes.take 5) == some [5, 14, 0, 0, 0])
      = true := by decide +kernel

/-! ### Accounts (01) -/

/-- A LOAD_ACCOUNT payload for plan 3. -/
def loadPayload (kitId balance arrears : Nat) : List Byte :=
  be 4 kitId ++ be 1 3 ++ be 3 balance ++ be 2 arrears ++ be 1 0 ++ be 3 0 ++ be 2 0 ++ be 3 0

/-- The state after reset with plan 3 present and unused. -/
def planned : State := State.reset.setPlan 3 (some { plan3 with useCount := 0 })

theorem test_loadAccount_fills :
    taken .loadAccount planned (frame 0 6 131 (loadPayload kit 2000 0)) (fun t =>
      (t.account 131).map (fun a => (a.state, a.kitId, a.balance)) == some (.loaded, kit, 2000) &&
      (t.plan 3).map Plan.useCount == some 1) = true := by decide +kernel

/-- A kit id held elsewhere is refused DUPLICATE_KIT, code 9 (R14). -/
theorem test_loadAccount_duplicate :
    taken .loadAccount (holding account3) (frame 0 6 132 (loadPayload kit 0 0)) (fun t => t.account 132 == none &&
      (lastRecord t).map (fun b => b.bytes.take 2) == some [5, 9]) = true := by decide +kernel

/-- The unsent grant of an unloaded account is returned: the closing IMAGE shows the balance 620 and no grant (R16). -/
theorem test_unloadAccount_returns_grant :
    taken .unloadAccount (holding { account3 with q := 18, pendingGrant := some ⟨18, 500, true⟩ }) (frame 0 7 131 (be 4 kit))
      (fun t => t.account 131 == none && (t.plan 3).map Plan.useCount == some 0 &&
        match lastRecord t with
        | some (.image a _) => a.balance == 620 && a.pendingGrant.isNone && a.q == 18
        | _ => false) = true := by decide +kernel

/-- The account of 01 section 1.11 with grant 18 of 500 Wh keyed. -/
def granted : Account := { account3 with balance := 400, allowance := 300, q := 18, pendingGrant := some ⟨18, 500, true⟩ }

/-- 01 section 1.11: SUSPEND withdraws the sent grant and returns its 500 Wh. -/
theorem test_suspend_withdraws :
    taken .suspend (holding granted) (frame 0 8 131 (be 4 kit ++ [1, 0])) (fun t =>
      (t.account 131).map (fun a => (a.state, a.balance, a.q, a.withdrawn, a.pendingGrant, a.revokeDue)) ==
        some (.suspended, 900, 18, some ⟨18, 500⟩, none, true)) = true := by decide +kernel

theorem test_resume_activates :
    taken .resume (holding { account3 with state := .suspended, lockNoticeDue := true }) (frame 0 8 131 (be 4 kit ++ [2, 0]))
      (fun t => (t.account 131).map (fun a => (a.state, a.lockNoticeDue)) == some (.active, false)) = true := by decide +kernel

theorem test_clearQuarantine_rebases :
    taken .clearQuarantine (holding { account3 with state := .quarantined, cause := some .regress })
      (frame 0 8 131 (be 4 kit ++ [3, 1])) (fun t =>
        (t.account 131).map (fun a => (a.state, a.cause, a.rebaseDue)) == some (.suspended, none, true)) = true := by
  decide +kernel

theorem test_changePlan_moves_counts :
    taken .changePlan ((holding account3).setPlan 5 (some { plan3 with useCount := 0 })) (frame 0 8 131 (be 4 kit ++ [4, 5]))
      (fun t => (t.account 131).map Account.plan == some 5 && (t.plan 3).map Plan.useCount == some 0 &&
        (t.plan 5).map Plan.useCount == some 1) = true := by decide +kernel

theorem test_readAccount_clears_latch :
    taken .readAccount (holding { account3 with latch := { tamper := true } }) (frame 2 11 131 (be 4 kit ++ [1])) (fun t =>
      (t.account 131).map Account.latch == some {} && match lastRecord t with
        | some (.image a _) => a.latch.tamper
        | _ => false) = true := by decide +kernel

/-! ### Vouchers and adjustments (02 sections 2.3 and 2.4) -/

/-- The verdicts and windows of the worked window sequence (01, R19, R20): 40, 43, 41, 41 again, 62. -/
theorem test_window_moves :
    let w40 := windowAccept none 40
    let w43 := windowAccept (some w40) 43
    let w41 := windowAccept (some w43) 41
    windowTest (some w43) 41 = .accept ∧ windowTest (some w41) 41 = .duplicate ∧ windowTest (some w41) 43 = .duplicate ∧
    windowTest (some (windowAccept (some w41) 62)) 43 = .stale ∧ windowTest (some (windowAccept (some w41) 62)) 46 = .accept := by
  decide

/-- A voucher payload. -/
def voucher (amount s : Nat) : List Byte := be 4 kit ++ be 3 amount ++ be 3 s

/-- Case 1: a voucher across a tier ceiling. -/
theorem test_applyVoucher_case1 :
    taken .applyVoucher (holding account3) (frame 1 10 131 (voucher 5000 78)) (fun t =>
      (t.account 131).map (fun a => (a.balance, a.carry, a.periodPurchase, a.window.map fun w => (w.h, w.mark 1))) ==
        some (3413, 1400, 4993, some (78, true)) && match lastRecord t with
        | some (.receipt (.applyVoucher r)) => r.tierCredits == [300, 2993] && r.credit == 3293 && r.fee == 150
        | _ => false) = true := by decide +kernel

/-- Case 3: the ceiling refusal leaves the account exactly as before. -/
theorem test_applyVoucher_case3 :
    let a := { account3 with balance := 3413, carry := 1400, periodPurchase := 4993, window := some ⟨78, 0⟩ }
    taken .applyVoucher (holding a) (frame 1 10 131 (voucher 2000 79)) (fun t => t.account 131 == some a &&
      (lastRecord t).map (fun b => b.bytes.take 5) == some [5, 11, 2, 0, 131]) = true := by decide +kernel

/-- An adjustment payload. -/
def adjustment (delta forgiveness : Nat) : List Byte := be 4 kit ++ be 4 delta ++ be 2 forgiveness

/-- The first worked adjustment: forgiven 50, paid 42, added 258. -/
theorem test_adjustCredit_pays_arrears :
    taken .adjustCredit (holding { account3 with state := .locked, balance := 0, arrears := 92 })
      (frame 0 9 131 (adjustment 300 50)) (fun t =>
        (t.account 131).map (fun a => (a.state, a.balance, a.arrears)) == some (.active, 258, 0)) = true := by decide +kernel

/-- The second: delta -400 removes 258, with a NOTICE, and the account locks. -/
theorem test_adjustCredit_clamps :
    taken .adjustCredit (holding { account3 with balance := 258 }) (frame 0 9 131 (adjustment 4294966896 0)) (fun t =>
      (t.account 131).map (fun a => (a.state, a.balance)) == some (.locked, 0) &&
      lastRecord t == some (.notice (.adjustClamped 400 258))) = true := by decide +kernel

/-! ### Services of a kit's link (03, 09) -/

theorem test_relayToKit_holds :
    taken .relayToKit (holding account3) (frame 1 12 131 (be 4 kit ++ [1, 2, 3])) (fun t =>
      (t.account 131).map Account.relay == some (some ⟨[1, 2, 3], 7730, 0⟩)) = true := by decide +kernel

/-- 09's worked probe: seed 8,965 and f = 2 under tag 7,730. -/
theorem test_probeKit_holds :
    taken .probeKit (linked (holding account3) { state := .bound, kitId := some kit } {})
      (frame 1 13 131 (be 4 kit ++ be 2 8965 ++ [2])) (fun t => (t.linkVol 131).probe == some ⟨8965, 2, 7730⟩) = true := by
  decide +kernel

/-- The pattern of the worked probe: bytes 0, 8 and 31; and the planted errors key 5 as 1 and 29 as 31. -/
theorem test_probe_pattern :
    let p := probePattern 8965
    (p.getD 0 0, p.getD 8 0, p.getD 31 0) = (5, 29, 66) ∧
    (plantErrors (payloadBlocks p) 8965 2).map (fun b => b.getD 0 0) = [1, 31, 53, 77] := by decide +kernel

/-! ### The field timer and the beacon (06) -/

/-- Node 3,071 of rank 12 in RUN, in CLAIMED cycle 8,130, at a place. -/
def claimed (s : State) (p : Place) : State :=
  { s with
    ret := { s.ret with nodeId := 3071, rank := 12, requested := .run }
    fp := { s.fp with
      idInEffect := 3071, rankInEffect := 12, effective := .run, cycle := 8130, status := .claimed, callsOpen := true
      place := p } }

/-- The first cycle after a start is cycle 0 (R103). -/
theorem test_cycleStart_first :
    after (exec (.cycleStart []) State.reset) (fun t => t.fp.cycle == 0 && t.fp.place == .cycleBegun) = true := by
  decide +kernel

/-- 06 section 6.2: the shadow is adopted at the cycle start. -/
theorem test_cycleStart_adopts_shadow :
    after (exec (.cycleStart []) { State.reset with fp := { State.reset.fp with shadow := some ⟨300, 4, 20, 150⟩, place := .gap } })
      (fun t => t.ret.active == ⟨300, 4, 20, 150⟩ && t.fp.shadow.isNone) = true := by decide +kernel

/-- 06 section 6.3: mast A keys rank 00001100, then 3,071. -/
theorem test_slotStart_keys_dominance_word :
    after (exec (.slotStart []) (claimed State.reset .cycleBegun)) (fun t =>
      t.fp.place == .beacon && t.fp.downlink == .dominance 0b000011000000101111111111) = true := by decide +kernel

/-- Under QUIET the cycle is UNCLAIMED (R108). -/
theorem test_slotStart_quiet_unclaimed :
    after (exec (.slotStart []) { State.reset with fp := { State.reset.fp with place := .cycleBegun } })
      (fun t => t.fp.status == .unclaimed && t.fp.downlink == .silent) = true := by decide +kernel

theorem test_gapStart_begins_gap :
    after (exec (.gapStart []) (claimed State.reset (.data 23))) (fun t => t.fp.place == .gap) = true := by decide +kernel

/-- Mast A while it keys its dominance word. -/
def contending : State :=
  let s := claimed State.reset .beacon
  { s with fp := { s.fp with status := .pending, downlink := .dominance 0x0C0BFF } }

theorem test_beaconWon_claims :
    after (exec .beaconWon contending) (fun t => t.fp.status == .claimed && t.fp.history == [.won] && t.fp.callsOpen) = true := by
  decide +kernel

/-- Mast A senses carrier at the ninth bit of the id and yields. -/
theorem test_beaconYield_yields :
    after (exec (.beaconYield 16) contending) (fun t => t.fp.status == .yielded && t.fp.downlink == .silent &&
      t.fp.history == [.yielded] && t.counters.yieldedCycles == 1) = true := by decide +kernel

/-! ### Exchanges (03, 06, 07, 09) -/

/-- The link of a kit bound at cell (8130 mod 64 = 2, 4). -/
def boundLink : LinkRetained :=
  { state := .bound, kitId := some kit, placement := some ⟨2, 4, 6⟩, figures := some ⟨2, 7, 600, 3, 6⟩ }

/-- The granted account's kit bound on cell (2, 4), its node at a place of cycle 8,130. -/
def polling (a : Account) (p : Place) : State :=
  let s := linked (claimed (holding a) p) boundLink {}
  { s with ret := { s.ret with calendar := s.ret.calendar.setIfInBounds (cellIndex 2 4) (some 131) } }

/-- A POLL of the kit, its carried set kept. -/
def polled (a : Account) (d : Downlink) (w : ReplyWindow) : State :=
  let s := polling a (.data 4)
  { s with
    fp := { s.fp with downlink := d, window := w }
    lc := { s.lc with exchange := some ⟨.poll a.instructionSet, 131, kit⟩ } }

/-- A wake makes a poll request, which creates a grant of the dose 300 from a balance of 500 (R49, R50). -/
theorem test_slotStart_polls :
    after (exec (.slotStart []) (polling { account3 with balance := 500 } (.data 3))) (fun t =>
      (t.account 131).map (fun a => (a.balance, a.q, a.pendingGrant)) == some (200, 1, some ⟨1, 300, false⟩) &&
      match t.fp.downlink with
      | .handed f => f.kind == .poll && f.address == 131
      | _ => false) = true := by decide +kernel

/-- A POLL frame to the kit. -/
def pollDown : DownFrame := ⟨.poll, 131, false, [], none⟩

theorem test_keyingBegun_marks_sent :
    after (exec .keyingBegun (polled { granted with pendingGrant := some ⟨18, 500, false⟩ } (.handed pollDown) .closed)) (fun t =>
      (t.account 131).map Account.pendingGrant == some (some ⟨18, 500, true⟩)) = true := by decide +kernel

theorem test_downlinkKeyed_opens_window :
    after (exec .downlinkKeyed (polled granted (.keying pollDown []) .closed)) (fun t =>
      t.fp.window == .open && t.fp.downlink == .silent) = true := by decide +kernel

/-- The window closes with no record: a MISS (06 section 6.5, slot data 5). -/
theorem test_replyWindowClose_misses :
    after (exec (.replyWindowClose false) (polled granted .silent .open)) (fun t =>
      (t.link 131).history == [.miss] && (t.link 131).misses == 1 && (t.linkVol 131).missedWakes == 1) = true := by
  decide +kernel

/-- A kit's header block. -/
def header (kind node address cycleBits count flags : Nat) : Block :=
  encodeBlock (be 1 kind ++ be 2 node ++ be 2 address ++ be 1 cycleBits ++ be 1 count ++ be 1 flags)

/-- 06 section 6.5, slot data 5: a REPORT header that names node 3,070 is foreign. -/
theorem test_header_foreign :
    after (exec (.fieldHeaderBlock 0 ⟨header 10 3070 131 2 2 0, false⟩) (polled granted .silent .open)) (fun t =>
      t.counters.foreignField == 1 && t.fp.reception.isNone) = true := by decide +kernel

/-- 06 section 6.5, slot data 4: a REPORT header with a single-bit error is corrected and opens a reception. -/
theorem test_header_corrected :
    after (exec (.fieldHeaderBlock 0 ⟨plantError (header 10 3071 131 2 2 0) 5, false⟩) (polled granted .silent .open)) (fun t =>
      t.fp.reception == some ⟨.report, 131, 2, 0, true, 0⟩) = true := by decide +kernel

/-- A reception from the kit in the reply window of a POLL. -/
def receiving (s : State) (r : FieldReception) : State := { s with fp := { s.fp with reception := some r } }

/-- 06 section 6.5, slot data 6: carrier lost after 2 of 3 blocks: SHORT_FRAMES, and a failed frame. -/
theorem test_carrierLossEnd_short :
    after (exec (.carrierLossEnd ((payloadBlocks (List.replicate 24 0)).take 2))
      (receiving (polled granted .silent .open) ⟨.report, 131, 3, 0, false, 0⟩)) (fun t =>
        t.counters.shortFrames == 1 && (t.linkVol 131).failedFrames == 1 && (t.link 131).history == [.miss]) = true := by
  decide +kernel

/-- A REPORT payload: applied sequence, meter, remaining allowance, flags, discarded. -/
def report (a m k flags r : Nat) : List Byte := be 1 a ++ be 3 m ++ be 3 k ++ be 1 flags ++ be 3 r

/-- A good REPORT that applied the grant: a HIT, and the allowance is the kit's (R55, R129). -/
theorem test_fieldFrameEnd_hit :
    after (exec (.fieldFrameEnd (payloadBlocks (report 18 5000 800 0 0)))
      (receiving (polled granted .silent .open) ⟨.report, 131, 2, 0, false, 0⟩)) (fun t =>
        (t.link 131).history == [.hit] && (t.linkVol 131).reportTaken &&
        (t.account 131).map (fun a => (a.allowance, a.pendingGrant, a.baseline)) == some (800, none, some 5000)) = true := by
  decide +kernel

/-- A CALL whose urgency byte is 05h has urgency 1 (R188) and, with the sampled word's bits, queues the kit (R134, R135). -/
theorem test_fieldFrameEnd_call :
    after (exec (.fieldFrameEnd (payloadBlocks (be 4 kit ++ [5])))
      (receiving (claimed (holding account3) (.contention 1))
        ⟨.call, 0, 1, 0, false, BitVec.ofNat 16 (1 * 16384 + kit % 16384)⟩)) (fun t =>
        t.lc.callers == [⟨kit, 131, 1, 0, none, false⟩] && (t.linkVol 131).progress == some .waiting) = true := by
  decide +kernel

/-! ### Reconciliation and the calendar -/

/-- 03 section 3.8: the withdrawn grant 18 was applied; the balance pays it, and the revoke returns 680 Wh. -/
theorem test_reconcile_revoke :
    let a := { account3 with
      balance := 2100, allowance := 300, q := 18, withdrawn := some ⟨18, 500⟩, revokeDue := true, baseline := some 8000 }
    let b := (a.reconcile plan3 131 ⟨18, 8120, 0, true, 680, {}⟩ a.instructionSet).1
    (b.balance, b.allowance, b.withdrawn, b.revokeDue) = (2280, 0, none, false) := by decide +kernel

/-- 03 section 3.7: a meter that wraps past 16,777,215 counts forward. -/
theorem test_meter_wraps : meterDistance 1184 16776900 = 1500 := by decide

/-- An unlisted calendar is free: the first placement at exponent 4 is phase 0, data slot 0 (R123). -/
theorem test_allocation_first : State.reset.findPlacement 4 6 = some ⟨0, 0, 4⟩ := by decide +kernel

/-! ### Clock and supplies (11) -/

theorem test_clockSecond_midnight :
    after (exec .clockSecond { State.reset with ret := { State.reset.ret with clock := ⟨true, 19380, 86399⟩ } })
      (fun t => t.ret.clock == ⟨true, 19381, 0⟩) = true := by decide +kernel

/-- A cold start at power-up leaves the state after reset (R184). -/
theorem test_powerUp_cold :
    after (exec .powerUp { holding account3 with retentionValid := false, powered := false }) (fun t =>
      t.powered && t.retentionValid && t.ru == State.reset.ru && t.fp == State.reset.fp && t.account 131 == none) = true := by
  decide +kernel

/-- A warm start keeps the accounts, silences the bound kits and raises WARM_RESTART alone (R138, R184). -/
theorem test_powerUp_warm :
    after (exec .powerUp { polling account3 .gap with powered := false }) (fun t =>
      t.account 131 == some account3 && (t.link 131).state == .silent && t.ru.alarms == 2) = true := by decide +kernel

theorem test_powerFail_clears_volatile :
    after (exec .powerFail { State.reset with counters := { gap := 3 } }) (fun t =>
      !t.powered && t.counters == {} && t.ru == {} && t.retentionValid) = true := by decide +kernel

theorem test_retentionSupplyLoss_drops_mark :
    after (exec .retentionSupplyLoss State.reset) (fun t => !t.retentionValid) = true := by decide +kernel

/-! ### Witnesses: invariants -/

/-- A state with an account, its plan, its link, a queued kit and a waiting command. -/
def sample : State :=
  let s := polling granted (.data 3)
  { s with
    lc := { s.lc with callers := [⟨kit, 131, 1, 0, none, false⟩], nextArrival := 1 }
    pending := [.clockSecond] }

theorem sample_account (k : Nat) : sample.account k = if k = 131 then some granted else none := by
  have h := account_congr (t := sample) (s := (State.reset.setPlan 3 (some plan3)).setAccount 131 (some granted)) (by rfl) k
  have h0 : (State.reset.setPlan 3 (some plan3)).account k = none := by
    simp [State.account, State.setPlan, State.reset, Retained.cold, Vector.getElem?_replicate]
    split <;> simp
  rw [h, account_setAccount, h0]
  simp

theorem sample_plan (n : Nat) : sample.plan n = if n = 3 then some plan3 else none := by
  have h := plan_congr (t := sample) (s := State.reset.setPlan 3 (some plan3)) (by rfl) n
  have h0 : State.reset.plan n = none := by
    simp [State.plan, State.reset, Retained.cold, Vector.getElem?_replicate]
    split <;> simp
  rw [h, plan_setPlan, h0]
  grind

theorem sample_steps : ∃ t, step sample = .next t := ⟨_, rfl⟩

theorem sample_command : sample.pending.head? ≠ some .retentionSupplyLoss := by decide

theorem witness_StepRunsFrontCommand : sample.pending = Instr.clockSecond :: [] ∧ State.reset.pending = [] := ⟨rfl, rfl⟩

theorem witness_StepKeepsReportBounds : sample.ReportsBounded ∧ ∃ t, step sample = .next t :=
  ⟨by unfold State.ReportsBounded; decide +kernel, sample_steps⟩

theorem witness_StepKeepsTrunkBounds : sample.TrunkBounded ∧ ∃ t, step sample = .next t :=
  ⟨⟨by decide +kernel, trivial, fun f hf => by cases hf⟩, sample_steps⟩

theorem witness_StepKeepsCallerOrder : sample.CallersOrdered ∧ ∃ t, step sample = .next t :=
  ⟨by unfold State.CallersOrdered; decide +kernel, sample_steps⟩

theorem witness_StepKeepsCounterRanges : sample.CountersBounded ∧ sample.CycleBounded ∧ ∃ t, step sample = .next t := by
  refine ⟨⟨fun n => ?_, fun k => ?_⟩, by unfold State.CycleBounded; decide +kernel, sample_steps⟩
  · cases n <;> exact Nat.zero_le _
  · have h := linkVol_congr (t := sample) (s := State.reset.setLinkVol 131 {}) (by rfl) k
    have h0 : State.reset.linkVol k = {} := by
      simp [State.linkVol, State.reset, Vector.getElem?_replicate]
      split <;> rfl
    rw [h, linkVol_setLinkVol, h0]
    split <;> simp [LinkVolatile.CountersBounded]

theorem witness_StepKeepsDispositionTable :
    sample.DispositionSound ∧ sample.pending.head? ≠ some .retentionSupplyLoss ∧ ∃ t, step sample = .next t := by
  refine ⟨⟨fun c _ => rfl, by decide +kernel, by decide +kernel, fun c e h => ?_⟩, sample_command, sample_steps⟩
  have hc : c < 64 := by
    by_contra hc
    simp [State.entry, Nat.not_lt.mp hc] at h
  have hall : ∀ c < 64, ∀ e ∈ sample.entry c, e.ceiling ≤ 3 ∧ (4 ≤ c → e.fixed = false) ∧
      (e.handler = .nodeControl ∨ e.handler = .loadDisposition → e.ceiling = 0) := by decide +kernel
  exact hall c hc e h

theorem witness_StepKeepsFiguresSound :
    sample.FiguresSound ∧ sample.pending.head? ≠ some .retentionSupplyLoss ∧ ∃ t, step sample = .next t := by
  refine ⟨⟨fun k a h => ?_, fun n p h => ?_⟩, sample_command, sample_steps⟩
  · rw [sample_account] at h
    split at h <;> cases h
    exact ⟨.inr rfl, by decide, by decide⟩
  · rw [sample_plan] at h
    split at h <;> cases h
    decide

theorem witness_StepKeepsKitIdsUnique :
    sample.KitIdsUnique ∧ sample.pending.head? ≠ some .retentionSupplyLoss ∧ ∃ t, step sample = .next t := by
  refine ⟨⟨fun k a h => ?_, fun j k a b ha hb _ => ?_⟩, sample_command, sample_steps⟩
  · rw [sample_account] at h
    split at h <;> cases h
    decide
  · rw [sample_account] at ha hb
    split at ha <;> split at hb <;> simp_all

theorem witness_StepKeepsGrantsExclusive :
    sample.GrantsExclusive ∧ sample.pending.head? ≠ some .retentionSupplyLoss ∧ ∃ t, step sample = .next t := by
  refine ⟨fun k a h => ?_, sample_command, sample_steps⟩
  rw [sample_account] at h
  split at h <;> cases h
  exact fun _ => ⟨rfl, rfl⟩

theorem witness_StepKeepsUseCounts :
    sample.UseCountsAgree ∧ sample.pending.head? ≠ some .retentionSupplyLoss ∧ ∃ t, step sample = .next t := by
  refine ⟨⟨fun n p h => ?_, fun k a h => ?_⟩, sample_command, sample_steps⟩
  · rw [sample_plan] at h
    split at h <;> cases h
    next hn => subst hn; decide +kernel
  · rw [sample_account] at h
    split at h <;> cases h
    rw [sample_plan]
    rfl

theorem witness_StepKeepsControlRanges :
    sample.ControlInRange ∧ sample.pending.head? ≠ some .retentionSupplyLoss ∧ ∃ t, step sample = .next t := by
  refine ⟨?_, sample_command, sample_steps⟩
  unfold State.ControlInRange Clock.Valid
  decide +kernel

/-- The cells that the kit's placement in `sample` covers, and those occupied, are one. -/
theorem sample_cell (i : Nat) (k : Nat) : sample.ret.calendar[i]? = some (some k) ↔ i = cellIndex 2 4 ∧ k = 131 := by
  have h : sample.ret.calendar = (Vector.replicate 1536 none).setIfInBounds (cellIndex 2 4) (some 131) := rfl
  rw [h, Vector.getElem?_setIfInBounds]
  split
  · next hi => subst hi; simp [cellIndex, eq_comm]
  · next hi => simpa [Vector.getElem?_replicate] using fun h => absurd h.symm hi

theorem sample_link (k : Nat) : sample.link k = if k = 131 then boundLink else {} := by
  have h := link_congr (t := sample) (s := State.reset.setLink 131 boundLink) (by rfl) k
  have h0 : State.reset.link k = {} := by
    simp [State.link, State.reset, Retained.cold, Vector.getElem?_replicate]
    split <;> rfl
  rw [h, link_setLink, h0]
  simp

theorem witness_StepKeepsCalendarLaw :
    sample.CalendarLawful ∧ sample.pending.head? ≠ some .retentionSupplyLoss ∧ ∃ t, step sample = .next t := by
  refine ⟨⟨fun k => ?_, fun k p h i hi => ?_, fun i k h => ?_, by decide⟩, sample_command, sample_steps⟩
  · rw [sample_link]
    split <;> rfl
  · rw [sample_link] at h
    split at h
    · next hk => cases h; exact (sample_cell i k).2 ⟨by simpa [Placement.cells, Placement.rows] using hi, hk⟩
    · cases h
  · obtain ⟨rfl, rfl⟩ := (sample_cell i k).1 h
    exact ⟨⟨2, 4, 6⟩, by rw [sample_link]; rfl, by decide⟩

/-! ### Witnesses: starts and the trunk -/

/-- The state after reset with a clock. -/
def clocked (c : Clock) : State := { State.reset with ret := { State.reset.ret with clock := c } }

theorem witness_PowerUpAndResetNodeStart :
    ({ State.reset with retentionValid := false } : State).retentionValid = false ∧ State.reset.retentionValid = true ∧
    Meets .resetNode State.reset (frame 0 0 0 [3, 1]) (fun _ => byteAt [3, 1] 1 = 1) ∧
    Meets .resetNode State.reset (frame 0 0 0 [3, 2]) (fun _ => byteAt [3, 2] 1 = 2) ∧
    Meets .resetNode State.reset (frame 0 0 0 [3, 0]) (fun _ => byteAt [3, 0] 1 ≠ 1 ∧ byteAt [3, 0] 1 ≠ 2) ∧
    Meets .resetNode State.reset (frame 0 0 0 [3, 3]) (fun _ => byteAt [3, 3] 1 ≠ 1 ∧ byteAt [3, 3] 1 ≠ 2) :=
  ⟨rfl, rfl, meets (by decide +kernel), meets (by decide +kernel), meets (by decide +kernel), meets (by decide +kernel)⟩

theorem witness_ReceiverTakesBytes :
    ((occupied 15 .open).powered = true ∧ (occupied 15 .open).tp.receiver = .open ∧ escapeByte ≠ delimiterByte ∧
      (occupied 15 .open).tp.queue.length < 16 ∧ 16 ≤ (occupied 16 .open).tp.queue.length) ∧
    (occupied 0 .hunt).tp.receiver = .hunt ∧ (occupied 0 .discard).tp.receiver = .discard ∧
    (∀ r, (occupied 0 .open).tp.receiver ≠ .receive r) ∧
    (∀ r, (occupied 0 (.receive r)).tp.receiver = .receive r) ∧ (⟨[], 59, false, false⟩ : Reception).count < 60 ∧
    (⟨[], 60, true, false⟩ : Reception).count ≤ 60 ∧ 60 ≤ (⟨[], 60, false, false⟩ : Reception).count ∧
    (0x85 : Byte) ≠ delimiterByte ∧ (0x7A : Byte) ≠ delimiterByte ∧ (0x84 : Byte) ≠ 0x85 ∧ (0x84 : Byte) ≠ 0x7A :=
  ⟨by decide, rfl, rfl, (fun _ h => by cases h), fun _ => rfl, by decide, by decide, by decide, by decide, by decide, by decide, by decide⟩

/-- Content of a frame that states `stated` payload bytes and carries `payload`. -/
def content (stated : Nat) (payload : List Byte) : List Byte :=
  let body := [0, 0, 0, 0, 0, 0, 0, BitVec.ofNat 8 stated] ++ payload
  body ++ beBytes 4 (crc32 body).toNat

/-- A frame in reception spoils a check of R95: the condition of FrameCloseChecks. -/
def spoiled (r : Reception) : Bool :=
  let n := r.content.length
  r.broken || r.escaped || decide (n < 12) || r.content.drop (n - 4) != beBytes 4 (crc32 (r.content.take (n - 4))).toNat

theorem witness_FrameCloseChecks :
    spoiled ⟨content 0 [], 12, false, true⟩ ∧ spoiled ⟨content 0 [], 12, true, false⟩ ∧
    spoiled ⟨(content 0 []).take 11, 11, false, false⟩ ∧ spoiled ⟨(content 0 []).take 11 ++ [0], 12, false, false⟩ ∧
    ¬ spoiled ⟨content 0 [], 12, false, false⟩ ∧ ¬ spoiled ⟨content 3 [1, 2, 3, 4], 16, false, false⟩ ∧
    (RxFrame.mk ((content 3 [1, 2, 3, 4]).take 8) [1, 2, 3, 4]).statedLength < 4 := by decide +kernel

theorem witness_FramedBytesAreReceived :
    (∀ r, (occupied 15 .hunt).tp.receiver ≠ .receive r) ∧ (occupied 15 .hunt).tp.queue.length < 16 ∧
    ([0, 0, 0, 0, 0, 0, 0, 48] : List Byte).length = 8 ∧ (List.replicate 48 (0xA5 : Byte)).length ≤ 48 ∧
    48 ≤ (RxFrame.mk [0, 0, 0, 0, 0, 0, 0, 48] (List.replicate 48 0xA5)).statedLength :=
  ⟨(fun _ h => by cases h), by decide, by decide, by decide, by decide⟩

theorem witness_TransmitterTakesHolderFirst :
    (State.reset.powered = true ∧ State.reset.tp.transmitter = .idle) ∧
    ({ State.reset with ru := { holder := some (note 57) } } : State).ru.holder = some (note 57) ∧
    State.reset.ru.holder = none ∧ (∃ b r rest, State.reset.ru.queue = r :: rest ∧ r.body = .restart b) ∧
    ({ State.reset with ru := {} } : State).ru.queue = [] ∧
    ({ State.reset with tp := { transmitter := .sending (note 1) [] } } : State).tp.transmitter = .sending (note 1) [] :=
  ⟨⟨rfl, rfl⟩, rfl, rfl, ⟨_, _, _, rfl, rfl⟩, rfl, rfl⟩

/-! ### Witnesses: the Frame Classifier and Node Control -/

theorem witness_UnhandledFramesDroppedOrRefused :
    (∀ f : RxFrame, (State.waiting State.reset f).powered = true ∧ (State.waiting State.reset f).tp.queue = f :: []) ∧
    (RxFrame.make 1 0 0 1 0 []).destination = 1 ∧ State.reset.fp.idInEffect = 0 ∧
    (RxFrame.mk [0, 0, 0, 0, 0, 0, 0, 1] []).statedLength ≠ 0 ∧
    (frame 0 0 0 (List.replicate 49 0)).statedLength = 49 ∧ 384 < (frame 0 0 385 []).slot ∧ (frame 0 0 384 []).slot ≤ 384 ∧
    State.reset.ret.limit ≤ (frame 0 16 0 []).cls ∧
    Meets .frameTaken State.reset (frame 0 0 0 [10]) (fun e => e.handler = .nodeControl) ∧
    Meets .frameTaken (holding account3) (frame 0 8 131 (be 4 kit ++ [5])) (fun e => e.handler = .setAccountState) ∧
    Meets .frameTaken (holding account3) (frame 0 8 131 (be 4 kit ++ [5, 0]))
      (fun e => e.handler = .setAccountState ∧ (be 4 kit ++ [5, 0]).length = 6) := by
  refine ⟨fun f => ⟨rfl, rfl⟩, by decide +kernel, rfl, by decide, by decide +kernel, by decide +kernel, by decide +kernel,
    by decide +kernel, meets (by decide +kernel), meets (by decide +kernel), meets (by decide +kernel)⟩

/-- The clauses of AuthorityAndTargetRefuse on the default table, each with its class, slot index, authority and payload. -/
theorem witness_AuthorityAndTargetRefuse :
    let s := holding account3
    let admits (f : RxFrame) (h : Handler) := f.destination = s.fp.idInEffect ∧ f.statedLength = f.count ∧ f.statedLength ≤ 48 ∧
      f.slot ≤ 384 ∧ f.cls < s.ret.limit ∧ (s.entry f.cls).map Entry.handler = some h
    (admits (frame 1 0 0 []) .nodeControl ∧ (s.entry 0).map Entry.ceiling = some 0) ∧
    (admits (frame 0 0 1 []) .nodeControl ∧ Handler.nodeControl.target = .node) ∧
    (admits (frame 0 7 0 []) .unloadAccount ∧ Handler.unloadAccount.target = .account) ∧
    (RxFrame.make 65535 0 7 1 131 []).destination = 65535 ∧
    (admits (frame 0 6 131 []) .loadAccount ∧ (s.account 131).isSome) ∧
    (admits (frame 0 7 132 []) .unloadAccount ∧ s.account 132 = none) ∧
    (admits (frame 0 7 131 [0, 0, 0]) .unloadAccount ∧ s.account 131 = some account3) ∧
    (admits (frame 0 7 131 (be 4 (kit + 1))) .unloadAccount ∧ (frame 0 7 131 (be 4 (kit + 1))).kitId ≠ account3.kitId) ∧
    (let entry (m : ReportMode) := (s.setEntry 7 (some ⟨.unloadAccount, 1, m, false⟩)).entry 7
     (s.entry 7).map Entry.mode = some .all ∧ (entry .refusalsOnly).map Entry.mode = some .refusalsOnly ∧
     (entry .silent).map Entry.mode = some .silent) := by
  decide +kernel

/-- A refusal is handed over under REFUSALS_ONLY and suppressed under SILENT (R88). -/
theorem test_refusal_modes :
    let queued (m : ReportMode) := taken .unloadAccount ((holding account3).setEntry 7 (some ⟨.unloadAccount, 1, m, false⟩))
      (frame 0 7 132 []) (fun t => t.ru.queue.length == (holding account3).ru.queue.length + 1)
    queued .refusalsOnly = true ∧ queued .silent = false := by decide +kernel

theorem witness_LengthCheckedButByDiscard :
    Meets .unloadPlan State.reset (frame 0 5 0 []) (fun e => layoutFits e.handler (frame 0 5 0 []) = false) ∧
    Meets .applyVoucher (holding account3) (frame 0 10 131 (be 4 kit)) (fun e =>
      layoutFits e.handler (frame 0 10 131 (be 4 kit)) = false ∧ (holding account3).account 131 = some account3) ∧
    Meets .adjustCredit (holding account3) (frame 0 9 131 (be 4 kit)) (fun e =>
      layoutFits e.handler (frame 0 9 131 (be 4 kit)) = false) ∧
    Meets .discard State.reset (frame 3 15 384 []) (fun e => e.mode ≠ .all) ∧
    Meets .discard (State.reset.setEntry 15 (some ⟨.discard, 3, .all, false⟩)) (frame 3 15 0 [])
      (fun e => e.mode = .all) := by
  refine ⟨?_, ?_, ?_, ?_, ?_⟩ <;> exact meets (by decide +kernel)

/-- A LOAD_DISPOSITION frame meets the statement's premises, and `q`. -/
abbrev disposes (p : List Byte) (q : Prop) : Prop :=
  Meets .loadDisposition State.reset (frame 0 1 0 p) (fun _ => (p.length = 5 ∨ p.length = 6) ∧ byteAt p 1 ≤ 1 ∧ q)

theorem witness_LoadDispositionChecksAndWrites :
    disposes [64, 0, 0, 0, 0] (63 < byteAt [64, 0, 0, 0, 0] 0) ∧
    disposes [3, 0, 0, 0, 0] ((State.reset.entry 3).map Entry.fixed = some true) ∧
    disposes [63, 1, 16, 0, 1] (15 < byteAt [63, 1, 16, 0, 1] 2) ∧
    disposes [63, 1, 15, 4, 1] (3 < byteAt [63, 1, 15, 4, 1] 3) ∧
    disposes [63, 1, 15, 3, 4] (3 < byteAt [63, 1, 15, 3, 4] 4) ∧
    disposes [63, 1, 1, 1, 1] (byteAt [63, 1, 1, 1, 1] 3 ≠ 0) ∧
    disposes [63, 1, 15, 3, 3, 65] (64 < byteAt [63, 1, 15, 3, 3, 65] 5) ∧
    disposes [63, 1, 15, 3, 3, 3] (byteAt [63, 1, 15, 3, 3, 3] 5 < 4) ∧
    disposes [4, 0, 0, 0, 0] (State.reset.entry 4 = some ⟨.loadPlan, 0, .all, false⟩) ∧
    disposes [63, 1, 15, 3, 3, 64] (State.reset.entry 63 = none) := by
  refine ⟨?_, ?_, ?_, ?_, ?_, ?_, ?_, ?_, ?_, ?_⟩ <;> exact meets (by decide +kernel)

theorem witness_IdentityAndConfigWritten :
    Meets .setIdentity State.reset (frame 0 0 0 [1, 0, 0, 1]) (fun _ => field [1, 0, 0, 1] 1 2 = 0) ∧
    Meets .setIdentity State.reset (frame 0 0 0 [1, 255, 255, 1]) (fun _ => field [1, 255, 255, 1] 1 2 = 65535) ∧
    Meets .setIdentity State.reset (RxFrame.make 65535 0 0 1 0 [1, 255, 254, 1]) (fun _ => field [1, 255, 254, 1] 1 2 = 65534) ∧
    Meets .setIdentity State.reset (frame 0 0 0 [1, 0, 1, 1]) (fun _ => field [1, 0, 1, 1] 1 2 = 1) ∧
    Meets .setConfig State.reset (frame 0 0 0 [2, 7, 1, 8, 16]) (fun _ => ¬ byteAt [2, 7, 1, 8, 16] 1 ≤ 6) ∧
    Meets .setConfig State.reset (frame 0 0 0 [2, 6, 1, 8, 16]) (fun _ => byteAt [2, 6, 1, 8, 16] 4 ≤ 16) := by
  refine ⟨?_, ?_, ?_, ?_, ?_, ?_⟩ <;> exact meets (by decide +kernel)

theorem witness_CycleAndModeRequested :
    Meets .setCycle State.reset (frame 0 0 0 ([4] ++ be 2 100 ++ [2] ++ be 2 3600 ++ be 2 20)) (fun _ =>
      CycleParams.inRange ⟨100, 2, 3600, 20⟩ = true) ∧
    Meets .setCycle State.reset (frame 0 0 0 ([4] ++ be 2 2000 ++ [8] ++ be 2 3601 ++ be 2 500)) (fun _ =>
      CycleParams.inRange ⟨2000, 8, 3601, 500⟩ = false) ∧
    (∀ m < 5, meetsCheck .setMode State.reset (frame 0 0 0 [5, BitVec.ofNat 8 m]) (fun _ =>
      byteAt [5, BitVec.ofNat 8 m] 1 = m) = true) := by
  refine ⟨?_, ?_, ?_⟩
  · exact meets (by decide +kernel)
  · exact meets (by decide +kernel)
  · decide +kernel

theorem witness_FieldResetSilencesAndAbandons : Meets .fieldReset State.reset (frame 0 0 0 [6]) (fun _ => [6].length = 1) :=
  meets (by decide +kernel)

theorem witness_EscalationClearedAndMaskSet :
    Meets .clearEscalation { State.reset with ru := { holder := some (note 57) } } (frame 0 0 0 [7]) (fun _ => [7].length = 1) ∧
    Meets .clearEscalation State.reset (frame 0 0 0 [7]) (fun _ => State.reset.ru.holder = none) ∧
    Meets .setAlarmMask State.reset (frame 0 0 0 [8, 255, 255]) (fun _ => [8, 255, 255].length = 3) :=
  ⟨meets (by decide +kernel), meets (by decide +kernel), meets (by decide +kernel)⟩

theorem witness_ReadStatusCopiesThenClears :
    Meets .readStatus State.reset (frame 0 0 0 [9, 0]) (fun _ => byteAt [9, 0] 1 = 0) ∧
    Meets .readStatus State.reset (frame 0 0 0 [9, 1, 1, 255, 31]) (fun _ => byteAt [9, 1, 1, 255, 31] 1 = 1) :=
  ⟨meets (by decide +kernel), meets (by decide +kernel)⟩

/-- A SET_TIME payload. -/
def time (day second force : Nat) : List Byte := be 2 day ++ be 3 second ++ be 1 force

theorem witness_ClockCountsAndIsSet :
    ((∀ c : Clock, (clocked c).ret.clock = c) ∧ (⟨false, 0, 0⟩ : Clock).isSet = false ∧ 86398 + 1 < 86400 ∧ 86400 ≤ 86399 + 1 ∧
      (⟨true, 65534, 86399⟩ : Clock).day < 65535 ∧ (⟨true, 65535, 86399⟩ : Clock).day = 65535) ∧
    Meets .setTime State.reset (frame 0 2 0 (time 1 86400 0)) (fun _ => 86400 ≤ field (time 1 86400 0) 2 3) ∧
    Meets .setTime (State.reset.setEntry 4 (some ⟨.setTime, 3, .all, false⟩)) (frame 1 4 0 (time 1 86399 1)) (fun _ =>
      (frame 1 4 0 (time 1 86399 1)).authority ≠ 0) ∧
    Meets .setTime (clocked ⟨true, 2, 0⟩) (frame 0 2 0 (time 1 86399 0)) (fun _ => field (time 1 86399 0) 0 2 < 2) ∧
    Meets .setTime (clocked ⟨true, 2, 0⟩) (frame 0 2 0 (time 1 86399 1)) (fun _ => byteAt (time 1 86399 1) 5 = 1) ∧
    Meets .setTime State.reset (frame 0 2 0 (time 65535 86399 0)) (fun _ => field (time 65535 86399 0) 2 3 < 86400) := by
  refine ⟨⟨fun _ => rfl, by decide⟩, ?_, ?_, ?_, ?_, ?_⟩ <;> exact meets (by decide +kernel)

/-! ### Witnesses: services, plans, accounts -/

/-- The state after reset with the account and a BOUND link for its kit, holding the probe `p`. -/
def bound (a : Account) (st : LinkState) (p : Option Probe) : State :=
  linked (holding a) { boundLink with state := st } { probe := p }

theorem witness_ReadCountersCopiesThenClears :
    Meets .readCounters State.reset (frame 0 3 0 [0]) (fun _ => byteAt [0] 0 = 0) ∧
    Meets .readCounters State.reset (frame 0 3 0 [1]) (fun _ => byteAt [1] 0 = 1) ∧
    Meets .readCounters (holding account3) (frame 0 3 131 (be 4 kit ++ [0])) (fun _ => byteAt (be 4 kit ++ [0]) 4 = 0) ∧
    Meets .readCounters (holding account3) (frame 0 3 131 (be 4 kit ++ [1])) (fun _ => byteAt (be 4 kit ++ [1]) 4 = 1) := by
  refine ⟨?_, ?_, ?_, ?_⟩ <;> exact meets (by decide +kernel)

/-- A RELAY_TO_KIT payload of `n` bytes for the kit. -/
def relayOf (n : Nat) : List Byte := be 4 kit ++ List.replicate n 1

/-- A PROBE_KIT payload with `f` forced errors. -/
def probeOf (f : Nat) : List Byte := be 4 kit ++ be 2 65535 ++ be 1 f

theorem witness_RelayAndProbeAreHeld :
    (holding account3).account 131 = some account3 ∧
    Meets .relayToKit (holding account3) (frame 1 12 131 (relayOf 0)) (fun _ => (relayOf 0).length = 4) ∧
    Meets .relayToKit (holding account3) (frame 1 12 131 (relayOf 25)) (fun _ => 28 < (relayOf 25).length) ∧
    Meets .relayToKit (holding { account3 with relay := some ⟨[1], 5, 0⟩ }) (frame 1 12 131 (relayOf 24)) (fun _ =>
      (relayOf 24).length = 28) ∧
    Meets .relayToKit (holding account3) (frame 1 12 131 (relayOf 1)) (fun _ => account3.relay = none) ∧
    Meets .probeKit (holding account3) (frame 1 13 131 (probeOf 5)) (fun _ => 4 < byteAt (probeOf 5) 6) ∧
    Meets .probeKit (bound account3 (.bringup .confirmed) none) (frame 1 13 131 (probeOf 4)) (fun _ =>
      ((bound account3 (.bringup .confirmed) none).link 131).state = .bringup .confirmed) ∧
    Meets .probeKit (bound account3 .silent (some ⟨1, 0, 9⟩)) (frame 1 13 131 (probeOf 4)) (fun _ =>
      ((bound account3 .silent (some ⟨1, 0, 9⟩)).linkVol 131).probe.isSome) ∧
    Meets .probeKit (bound account3 .bound none) (frame 1 13 131 (probeOf 4)) (fun _ =>
      ((bound account3 .bound none).link 131).state = .bound) := by
  refine ⟨by decide +kernel, ?_, ?_, ?_, ?_, ?_, ?_, ?_, ?_⟩ <;> exact meets (by decide +kernel)

/-- The condition of LoadPlanChecksAndWrites on a payload, on the fields as read. -/
def planOk (p : List Byte) : Bool := (PlanPayload.read p).fieldsOk

theorem witness_LoadPlanChecksAndWrites :
    Meets .loadPlan State.reset (frame 0 4 0 (planPayload 16)) (fun _ => 15 < byteAt (planPayload 16) 0) ∧
    Meets .loadPlan State.reset (frame 0 4 0 (List.replicate 34 0)) (fun _ => planOk (List.replicate 34 0) = false) ∧
    Meets .loadPlan (holding account3) (frame 0 4 0 (planPayload 3)) (fun _ => planOk (planPayload 3) = true) ∧
    Meets .loadPlan State.reset (frame 0 4 0 (planPayload 15)) (fun _ => State.reset.plan 15 = none) := by
  refine ⟨?_, ?_, ?_, ?_⟩ <;> exact meets (by decide +kernel)

theorem witness_UnloadPlanFreesUnusedPlan :
    Meets .unloadPlan planned (frame 0 5 0 [16]) (fun _ => 15 < byteAt [16] 0) ∧
    Meets .unloadPlan planned (frame 0 5 0 [15]) (fun _ => planned.plan 15 = none) ∧
    Meets .unloadPlan (holding account3) (frame 0 5 0 [3]) (fun _ => (holding account3).plan 3 = some plan3 ∧ 0 < plan3.useCount) ∧
    Meets .unloadPlan planned (frame 0 5 0 [3]) (fun _ => planned.plan 3 = some { plan3 with useCount := 0 }) := by
  refine ⟨?_, ?_, ?_, ?_⟩ <;> exact meets (by decide +kernel)

theorem witness_ReadPlanAnswersImage :
    Meets .readPlan State.reset (frame 0 14 0 [16]) (fun _ => 15 < byteAt [16] 0) ∧
    Meets .readPlan State.reset (frame 0 14 0 [15]) (fun _ => byteAt [15] 0 ≤ 15 ∧ State.reset.plan 15 = none) :=
  ⟨meets (by decide +kernel), meets (by decide +kernel)⟩

/-- A LOAD_ACCOUNT frame meets the statement's premises in a state, and `q`. -/
abbrev loads (s : State) (slot : Nat) (p : List Byte) (q : Prop) : Prop :=
  Meets .loadAccount s (frame 0 6 slot p) (fun _ => p.length = 19 ∧ q)

theorem witness_LoadAccountChecksAndFills :
    loads planned 384 (loadPayload 0 0 0) (field (loadPayload 0 0 0) 0 4 = 0) ∧
    loads State.reset 1 (loadPayload kit 0 0) (State.reset.plan 3 = none) ∧
    loads (holding account3) 132 (loadPayload kit 0 0) ((holding account3).account 131 = some account3) ∧
    loads planned 384 (loadPayload kit 1 1) (planned.plan 3 = some { plan3 with useCount := 0 }) ∧
    loads planned 384 (loadPayload kit 4501 0) (plan3.creditCeiling < field (loadPayload kit 4501 0) 5 3) ∧
    loads planned 384 (loadPayload kit 4500 0) (planned.slotOfKit kit = none) ∧
    loads planned 1 (loadPayload kit 0 65535) (field (loadPayload kit 0 65535) 8 2 = 65535) := by
  refine ⟨?_, ?_, ?_, ?_, ?_, ?_, ?_⟩ <;> exact meets (by decide +kernel)

theorem witness_UnloadAccountClosesSlot :
    Meets .unloadAccount (holding granted) (frame 0 7 131 (be 4 kit)) (fun _ =>
      (holding granted).account 131 = some granted ∧ (be 4 kit).length = 4 ∧ (holding granted).plan 3 = some plan3) ∧
    (∃ p, ((bound granted .bound none).link 131).placement = some p ∧ cellIndex 2 4 ∈ p.cells) := by
  refine ⟨meets (by decide +kernel), ⟨⟨2, 4, 6⟩, by decide +kernel, by decide +kernel⟩⟩

/-- A SET_ACCOUNT_STATE frame meets the statement's premises for the account `a`, and `q`. -/
abbrev sets (c : Instr) (a : Account) (code argument : Nat) (q : Prop) : Prop :=
  Meets c (holding a) (frame 0 8 131 (be 4 kit ++ be 1 code ++ be 1 argument)) (fun _ =>
    (holding a).account 131 = some a ∧ (be 4 kit ++ be 1 code ++ be 1 argument).length = 6 ∧ q)

theorem witness_AccountStateCommands :
    sets .suspend { account3 with state := .quarantined } 1 0 True ∧
    sets .suspend account3 1 0 (account3.pendingGrant = none) ∧
    sets .suspend granted 1 0 (granted.pendingGrant = some ⟨18, 500, true⟩) ∧
    sets .resume account3 2 0 (account3.state ≠ .suspended) ∧
    sets .resume { account3 with state := .suspended, boundOnce := false } 2 0 True ∧
    sets .resume { account3 with state := .suspended, balance := 1 } 2 0 (0 < 1) ∧
    sets .resume { account3 with state := .suspended, balance := 0 } 2 0 (account3.allowance = 0) ∧
    sets .clearQuarantine account3 3 1 (account3.state ≠ .quarantined) ∧
    sets .clearQuarantine { account3 with state := .quarantined } 3 0 True ∧
    sets .changePlan account3 4 15 ((holding account3).plan 15 = none) ∧
    sets .changePlan account3 4 3 ((holding account3).plan 3 = some plan3) ∧
    Meets .changePlan ((holding account3).setPlan 15 (some plan3)) (frame 0 8 131 (be 4 kit ++ [4, 15])) (fun _ =>
      ((holding account3).setPlan 15 (some plan3)).plan 15 = some plan3 ∧ (15 : Nat) ≠ account3.plan) := by
  refine ⟨?_, ?_, ?_, ?_, ?_, ?_, ?_, ?_, ?_, ?_, ?_, ?_⟩ <;> exact meets (by decide +kernel)

theorem witness_ReadAccountAnswersImage :
    Meets .readAccount (holding account3) (frame 0 11 131 (be 4 kit ++ [0])) (fun _ =>
      (holding account3).account 131 = some account3 ∧ (holding account3).plan 3 = some plan3 ∧
      (be 4 kit ++ [0]).length = 5 ∧ byteAt (be 4 kit ++ [0]) 4 = 0) ∧
    Meets .readAccount (holding account3) (frame 0 11 131 (be 4 kit ++ [1])) (fun _ => byteAt (be 4 kit ++ [1]) 4 = 1) :=
  ⟨meets (by decide +kernel), meets (by decide +kernel)⟩

/-! ### Witnesses: vouchers and adjustments -/

/-- An APPLY_VOUCHER frame meets the statement's premises for the account `a` on plan 3, and `q`. -/
abbrev vouches (a : Account) (amount s : Nat) (q : Prop) : Prop :=
  Meets .applyVoucher (holding a) (frame 1 10 131 (voucher amount s)) (fun _ =>
    (holding a).account 131 = some a ∧ (holding a).plan 3 = some plan3 ∧ (voucher amount s).length = 10 ∧ q)

theorem witness_ApplyVoucherConverts :
    vouches account3 0 78 (field (voucher 0 78) 4 3 = 0) ∧
    vouches account3 1000001 78 (1000000 < field (voucher 1000001 78) 4 3) ∧
    vouches { account3 with state := .quarantined } 1 78 True ∧
    vouches account3 1 77 (windowTest account3.window 77 = .duplicate) ∧
    vouches account3 1 60 (windowTest account3.window 60 = .stale) ∧
    vouches account3 149 78 (149 * 1000 + account3.carry < plan3.fee * 1000) ∧
    vouches account3 1000000 78 (windowTest account3.window 78 = .accept) ∧
    vouches account3 5000 61 (windowTest account3.window 61 = .accept) ∧
    vouches { account3 with state := .locked, balance := 0 } 5000 78 (plan3.fee * 1000 ≤ 5000 * 1000 + account3.carry) := by
  refine ⟨?_, ?_, ?_, ?_, ?_, ?_, ?_, ?_, ?_⟩ <;> exact meets (by decide +kernel)

/-- An ADJUST_CREDIT frame meets the statement's premises for the account `a` on plan 3, and `q`. -/
abbrev adjusts (a : Account) (delta forgiveness : Nat) (q : Prop) : Prop :=
  Meets .adjustCredit (holding a) (frame 0 9 131 (adjustment delta forgiveness)) (fun _ =>
    (holding a).account 131 = some a ∧ (holding a).plan 3 = some plan3 ∧ (adjustment delta forgiveness).length = 10 ∧ q)

theorem witness_AdjustCreditCorrects :
    adjusts account3 16777216 0 (16777215 < (16777216 : Int).natAbs) ∧
    adjusts account3 0x80000000 0 (16777215 < (-2147483648 : Int).natAbs) ∧
    adjusts { account3 with state := .quarantined } 16777215 0 True ∧
    adjusts account3 4381 0 (plan3.creditCeiling < account3.balance + 4381) ∧
    adjusts account3 4380 0 (account3.balance + 4380 ≤ plan3.creditCeiling) ∧
    adjusts account3 0 65535 True ∧
    adjusts account3 4294967175 0 (field (adjustment 4294967175 0) 4 4 = 2 ^ 32 - 121) := by
  refine ⟨?_, ?_, ?_, ?_, ?_, ?_, ?_⟩ <;> exact meets (by decide +kernel)

theorem witness_WindowAcceptsOnce :
    windowTest none 40 = .accept ∧ windowTest (some ⟨43, 0⟩) 27 = .accept ∧ 45 ∉ [40, 43, 61] ∧ (∀ m ∈ [40, 43, 61], m ≤ 45 + 16) := by
  decide

theorem witness_ConversionKeepsMoney :
    account3.convert plan3 ⟨false, 0, 0⟩ ⟨5000, 78⟩ = .ok ⟨false, 0, ⟨[300, 2993], 1400, 4993⟩, 0, 3413, 0⟩ ∧ plan3.prices ≠ [] ∧
    (∀ x ∈ plan3.prices, 1 ≤ x ∧ x ≤ 65535) ∧ (∀ x ∈ plan3.ceilings, x ≤ 16777215) ∧ account3.periodPurchase ≤ 16777215 ∧
    plan3.ceilings.length + 1 = plan3.prices.length ∧ plan3.ceilings.getD 0 0 ≤ 2000 ∧
    { account3 with periodPurchase := 2000 }.convert plan3 ⟨false, 0, 0⟩ ⟨5000, 78⟩ =
      .ok ⟨false, 0, ⟨[0, 3233], 1400, 5233⟩, 0, 3353, 0⟩ :=
  ⟨by decide +kernel, by decide, by decide, by decide, by decide, by decide, by decide, by decide +kernel⟩

/-! ### Witnesses: grants, reconciliation, reports -/

theorem witness_PollRequestCreatesGrant :
    let s := polling { account3 with balance := 500 } (.data 4)
    (State.reset.account 131 = none) ∧ s.account 131 = some { account3 with balance := 500 } ∧ account3.kitId ≠ kit + 1 ∧
    s.plan 3 = some plan3 ∧ (s.link 131).figures = some ⟨2, 7, 600, 3, 6⟩ ∧ (s.link 131).state = .bound ∧ s.fp.effective = .run ∧
    account3.allowance < plan3.lowWater ∧
    (polling granted (.data 4)).account 131 = some granted ∧ granted.pendingGrant ≠ none := by decide +kernel

/-- The account of 03 section 3.8 before the next wake. -/
def withdrawing : Account :=
  { account3 with
    balance := 2100, allowance := 300, q := 18, withdrawn := some ⟨18, 500⟩, revokeDue := true, baseline := some 8000 }

theorem witness_ReconciliationKeepsEnergy :
    let rep : KitReport := ⟨18, 8120, 0, true, 680, {}⟩
    (∃ b, withdrawing.reconcile plan3 131 rep withdrawing.instructionSet = (b, [])) ∧
    (∀ g, withdrawing.pendingGrant = some g → withdrawing.allowance + g.amount ≤ 16777215) ∧
    (∀ w, withdrawing.withdrawn = some w → withdrawing.allowance + w.amount ≤ 16777215) ∧
    (∀ r ∈ ([] : List Report), ∀ x, r.body ≠ .notice (.balanceClamped x)) :=
  ⟨⟨_, Prod.ext rfl (by decide +kernel)⟩, (fun g h => by cases h), (fun w h => by cases h; decide), (fun r h => by cases h)⟩

theorem witness_ReconciliationRunsItsStages :
    let r : Recon := { acct := withdrawing }
    (300 = r.acct.allowance ∧ 299 < r.acct.allowance ∧ r.acct.allowance < 301) ∧
    withdrawing.pendingGrant = none ∧ withdrawing.withdrawn = some ⟨18, 500⟩ ∧
    (⟨18, 8120, 0, true, 680, {}⟩ : KitReport).applied = withdrawing.q ∧ withdrawing.baseline = some 8000 ∧
    meterDistance 8120 8000 = 120 ∧ withdrawing.allowance + 500 ≤ 16777215 ∧ withdrawing.instructionSet.revoke = true ∧
    680 ≤ withdrawing.allowance + 500 - 120 ∧ 0 ≤ withdrawing.allowance + 500 - 120 - 680 ∧
    (let faults (a : Account) (rep : KitReport) (carried : InstructionSet) :=
       (({ acct := a } : Recon).figures plan3 rep carried).faults
     let overdrawn : Account := { account3 with balance := 0, baseline := some 8000, q := 18 }
     granted.pendingGrant = some ⟨18, 500, true⟩ ∧ (18 + 255) % 256 = 17 ∧
     faults granted ⟨16, 0, 0, false, 0, {}⟩ {} = [.grantSeq] ∧ faults account3 ⟨1, 0, 0, false, 0, {}⟩ {} = [.grantSeq] ∧
     faults overdrawn ⟨18, 7999, 0, false, 0, {}⟩ {} = [.regress] ∧
     faults overdrawn ⟨18, 10001, 1, false, 0, {}⟩ {} = [.arrearsLimit, .overclaim] ∧
     faults withdrawing ⟨17, 8000, 300, true, 301, {}⟩ withdrawing.instructionSet = [.overclaim] ∧
     faults { overdrawn with rebaseDue := true } ⟨18, 1, 0, false, 0, {}⟩ {} = [] ∧
     ({ overdrawn with state := .quarantined } : Account).state = .quarantined ∧
     ({ account3 with state := .locked } : Account).state = .locked ∧ 0 < account3.balance) := by decide

/-- A report faulty twice (R54, R62, R63): QUARANTINED for the first cause, the notices after the record, the second cause last. -/
theorem test_reconcile_faults :
    let a : Account := { account3 with balance := 0, baseline := some 8000, q := 18 }
    let (b, rs) := a.reconcile plan3 131 ⟨18, 10001, 1, false, 0, ⟨false, false, true, false⟩⟩ {}
    b.state = .quarantined ∧ b.cause = some .arrearsLimit ∧ b.arrears = 2001 ∧ b.revokeDue = true ∧
    rs = [⟨0, 131, .quarantine kit .arrearsLimit .active 0 0 2001 18⟩, ⟨0, 131, .notice (.usageJump 2001 2000)⟩,
      ⟨0, 131, .notice (.cause .overclaim)⟩, ⟨0, 131, .kitEvent kit .batteryLow⟩] := by decide

/-- The state after reset with `n` records in the Report Queue and a holder. -/
def reporting (n : Nat) (h : Option Report) : State :=
  { State.reset with ru := { queue := List.replicate n (note 1), holder := h } }

theorem witness_ReportsAdmittedByClass :
    (Body.receipt (.unloadPlan 1)).reportClass = .essential ∧ Body.relayDone.reportClass = .advisory ∧
    (Body.quarantine kit .regress .active 0 0 0 0).reportClass = .quarantine ∧
    (reporting 63 none).ru.queue.length = 63 ∧ (reporting 64 none).ru.queue.length = 64 ∧ (reporting 55 none).ru.queue.length = 55 ∧
    (reporting 56 none).ru.queue.length = 56 ∧ (reporting 64 none).ru.holder = none ∧
    (reporting 64 (some (note 57))).ru.holder = some (note 57) ∧ (reporting 64 none).ru.alarms.getLsbD 8 = false ∧
    (reporting 64 none).ru.mask.getLsbD 8 = true ∧ State.reset.ru.alarms.getLsbD 8 = false ∧
    ((Body.quarantine kit .regress .active 0 0 0 0).group = .other ∧
      (Body.restart ⟨.cold, .power, 0, 255, ⟨false, 0, 0⟩, .quiet, 0, 0, 0, 0⟩).reportClass = .essential ∧
      (Body.restart ⟨.cold, .power, 0, 255, ⟨false, 0, 0⟩, .quiet, 0, 0, 0, 0⟩).group = .other) := by decide +kernel

/-! ### Witnesses: the field side -/

/-- The premises that the statements about slot and cycle starts share. -/
abbrev quietPort (s : State) : Prop :=
  s.powered = true ∧ s.fp.busy = false ∧ s.fp.reception = none ∧ s.fp.window = .closed

theorem witness_FieldTimerRunsCycle :
    let at_ (p : Place) := claimed State.reset p
    (quietPort State.reset ∧ State.reset.fp.place = .started) ∧ (quietPort (at_ .gap) ∧ (at_ .gap).fp.place = .gap) ∧
    (let s := { at_ (.data 23) with ret := { State.reset.ret with active := ⟨500, 6, 0, 200⟩ } }
     quietPort s ∧ s.fp.place = .data 23 ∧ s.ret.active.gap = 0) ∧
    (quietPort (at_ .cycleBegun) ∧ effectiveMode 3071 false .run ≠ .quiet) ∧
    (quietPort { State.reset with fp := { State.reset.fp with place := .cycleBegun } } ∧ effectiveMode 0 false .quiet = .quiet) ∧
    (quietPort (at_ .beacon) ∧ 0 < (at_ .beacon).ret.active.contentionCount) ∧
    (quietPort (at_ (.contention 4)) ∧ 4 + 1 < (at_ (.contention 4)).ret.active.contentionCount) ∧
    (let s := { at_ (.contention 5) with fp := { (at_ (.contention 5)).fp with status := .yielded } }
     quietPort s ∧ s.fp.status ≠ .claimed ∧ s.ret.active.contentionCount ≤ 5 + 1) ∧
    (let s := { at_ (.data 22) with fp := { (at_ (.data 22)).fp with status := .unclaimed } }
     quietPort s ∧ s.fp.status ≠ .claimed ∧ s.fp.place = .data 22) ∧
    (quietPort (at_ (.data 23)) ∧ (at_ (.data 23)).ret.active.gap ≠ 0) ∧
    (let s := { at_ (.data 4) with ret := { (at_ (.data 4)).ret with requested := .quiet } }
     quietPort s ∧ s.fp.status = .claimed ∧ effectiveMode s.fp.idInEffect s.ru.escalated s.ret.requested = .quiet) := by
  decide +kernel

/-- The kit of slot 131 queued, with a start cycle and a bring-up progress, in a cycle's gap or another place. -/
def queued (p : Place) (start : Option Nat) (progress : Progress) (age : Nat) : State :=
  let s := linked (claimed (holding account3) p) { kitId := some kit } { progress := some progress, declineAge := age }
  { s with lc := { s.lc with callers := [⟨kit, 131, 1, 0, start, false⟩], nextArrival := 1 } }

theorem witness_CycleStartTimesBringups :
    let c : Option Nat → Caller := fun start => ⟨kit, 131, 1, 0, start, false⟩
    let alone (s : State) (c : Caller) := quietPort s ∧ s.fp.place = .gap ∧ s.lc.callers.filter (fun d => d.slot == c.slot) = [c]
    let vol (s : State) := ((s.linkVol 131).progress, (s.linkVol 131).declineAge)
    (alone (queued .gap (some 8000) .declining 1) (c (some 8000)) ∧ vol (queued .gap (some 8000) .declining 1) = (some .declining, 1)) ∧
    (alone (queued .gap (some 8000) .declining 0) (c (some 8000)) ∧ vol (queued .gap (some 8000) .declining 0) = (some .declining, 0)) ∧
    (alone (queued .gap (some 8099) .offered 0) (c (some 8099)) ∧ 32 ≤ ((8130 + 1) % 65536 + 65536 - 8099) % 65536) ∧
    (alone (queued .gap (some 8100) .offered 0) (c (some 8100)) ∧ ((8130 + 1) % 65536 + 65536 - 8100) % 65536 < 32) ∧
    (alone (queued .gap none .waiting 0) (c none) ∧ (queued .gap none .waiting 0).ret.config.bringupLimit = 32) ∧
    (let s := queued (.data 23) (some 8099) .offered 0
     let t := { s with ret := { s.ret with active := ⟨500, 6, 0, 200⟩ } }
     quietPort t ∧ t.fp.place = .data 23 ∧ t.ret.active.gap = 0 ∧
       t.lc.callers.filter (fun d => d.slot == 131) = [c (some 8099)]) := by decide +kernel

theorem witness_BeaconArbitration :
    contending.fp.downlink = .dominance 0x0C0BFF ∧ (0x0C0BFF : BitVec 24).getLsbD (23 - 16) = true ∧
    (0x0C0BFF : BitVec 24).getLsbD (23 - 0) = false ∧ (0x0C0BFF : BitVec 24).getLsbD (23 - 23) = true ∧ 23 < 24 := by
  decide +kernel

/-- The cycle quieted before (R120). -/
def quieted (s : State) : State := { s with fp := { s.fp with quieted := true } }

/-- The kit of slot 131 at a link state, with a held probe, before its wake in data slot 4. -/
def waking (st : LinkState) (p : Option Probe) : State :=
  linked (polling account3 (.data 3)) { boundLink with state := st } { probe := p }

theorem witness_WakeSlotHandsPollOrProbe :
    let wake (s : State) := quietPort s ∧ s.fp.place.nextSlot s.ret.active.contentionCount = some (.data 4) ∧
      s.fp.status = .claimed ∧ effectiveMode s.fp.idInEffect s.ru.escalated s.ret.requested ≠ .quiet ∧
      s.cell (s.fp.cycle % 64) 4 = some 131
    (wake (waking .bound (some ⟨1, 0, 9⟩)) ∧ ((waking .bound (some ⟨1, 0, 9⟩)).linkVol 131).probe = some ⟨1, 0, 9⟩) ∧
    (wake (waking .silent none) ∧ ((waking .silent none).linkVol 131).probe = none) ∧
    (wake (waking (.bringup .confirmed) none) ∧ ((waking (.bringup .confirmed) none).link 131).state = .bringup .confirmed) ∧
    (wake (quieted (waking .bound none)) ∧ (waking .bound none).fp.quieted = false) := by decide +kernel

/-- Data slot 0 comes next, in a CLAIMED cycle not QUIET, on a free cell. -/
abbrev freeCell (s : State) : Prop :=
  quietPort s ∧ s.fp.place.nextSlot s.ret.active.contentionCount = some (.data 0) ∧ s.fp.status = .claimed ∧
  effectiveMode s.fp.idInEffect s.ru.escalated s.ret.requested ≠ .quiet ∧ s.cell (s.fp.cycle % 64) 0 = none

/-- The entry that a free cell serves next. -/
abbrev nextServed (s : State) : Option Caller := s.lc.callers.find? fun c => !c.mark && (s.linkVol c.slot).progress != some .confirmed

/-- A free cell comes next and the queued kit, at a progress and without pages, is served by it. -/
abbrev serves (start : Option Nat) (p : Progress) : Prop :=
  freeCell (queued (.contention 5) start p 0) ∧
  nextServed (queued (.contention 5) start p 0) = some ⟨kit, 131, 1, 0, start, false⟩ ∧
  ((queued (.contention 5) start p 0).linkVol 131).progress = some p ∧
  ((queued (.contention 5) start p 0).linkVol 131).page1 = none ∧ ((queued (.contention 5) start p 0).linkVol 131).page2 = none

theorem witness_FreeCellServesCaller :
    (freeCell (claimed State.reset (.contention 5)) ∧ nextServed (claimed State.reset (.contention 5)) = none) ∧
    ((waking (.bringup .offered) none).cell (8130 % 64) 4 = some 131 ∧
      ((waking (.bringup .offered) none).link 131).state = .bringup .offered) ∧
    serves none .waiting ∧ serves (some 8129) .invited ∧ serves (some 8129) .offered ∧ serves (some 8129) .page2 ∧
    serves (some 8129) .declining ∧ freeCell (quieted (queued (.contention 5) none .waiting 0)) := by
  refine ⟨?_, ?_, ?_, ?_, ?_, ?_, ?_, ?_⟩ <;> decide +kernel

/-- Page 1 of the kit, with its exponents. -/
def pageOne (low top : Nat) : Page1 := ⟨kit, ⟨2, 7, 600, low, top⟩, true, 5000, 18, 250, false⟩

/-- The kit of slot 131 at a bring-up progress with its pages, before a free cell in data slot 0. -/
def offering (p : Progress) (low top : Nat) (page2 : Option Page2) : State :=
  linked (queued (.contention 5) (some 8120) p 0) { boundLink with state := .bringup .offered }
    { progress := some p, page1 := some (pageOne low top), page2 := page2 }

/-- The same with every cell occupied by slot 1, a link at OFFERED. -/
def outbid : State :=
  let s := (offering .invited 0 0 none).setLink 1 { state := .bringup .offered }
  { s with ret := { s.ret with calendar := Vector.replicate 1536 (some 1) } }

/-- The kit of slot 131 before its OFFER, its link in a state and holding a probe. -/
def probing (st : LinkState) : State :=
  let s := offering .invited 3 6 none
  linked s { s.link 131 with state := st } { s.linkVol 131 with probe := some ⟨1, 0, 9⟩ }

/-- The premises of FreeCellOffersPlacement for the kit but for the cell's, with what the search finds. -/
abbrev offers (s : State) (p : Progress) (low start top : Nat) (found : Option Placement) : Prop :=
  (quietPort s ∧ s.fp.place = .contention 5 ∧ s.fp.status = .claimed ∧
    effectiveMode s.fp.idInEffect s.ru.escalated s.ret.requested ≠ .quiet ∧
    nextServed s = some ⟨kit, 131, 1, 0, some 8120, false⟩ ∧ s.account 131 = some account3 ∧ s.plan 3 = some plan3) ∧
  (s.linkVol 131).page1 = some (pageOne low top) ∧ (s.linkVol 131).progress = some p ∧
  (s.release 131).findPlacement start top = found

theorem witness_FreeCellOffersPlacement :
    (offers (offering .invited 3 6 none) .invited 3 4 6 (some ⟨0, 0, 4⟩) ∧
      freeCell (offering .invited 3 6 none)) ∧
    offers (offering .page2 3 6 (some ⟨{}, 5⟩)) .page2 3 5 6 (some ⟨0, 0, 5⟩) ∧
    (offers (probing .bound) .invited 3 4 6 (some ⟨0, 0, 4⟩) ∧ ((probing .bound).link 131).state = .bound ∧
      ((probing .bound).linkVol 131).probe = some ⟨1, 0, 9⟩) ∧
    (offers outbid .invited 0 0 0 none ∧ outbid.cell (8130 % 64) 0 = some 1 ∧ (outbid.link 1).state = .bringup .offered) := by
  refine ⟨⟨?_, ?_⟩, ?_, ⟨?_, ?_, ?_⟩, ?_, ?_, ?_⟩ <;> decide +kernel

/-- A renewal's OFFER ends the held probe with its record, a first bring-up's leaves it held (R160). -/
theorem test_offer_probe :
    let probe (st : LinkState) := after (exec (.slotStart []) (probing st)) (fun t =>
      (t.link 131).state == .bringup .offered && (t.linkVol 131).probe.isNone)
    probe .silent = true ∧ probe (.bringup .invited) = false := by decide +kernel

/-- A calendar with every cell occupied. -/
def crowded : State := { State.reset with ret := { State.reset.ret with calendar := Vector.replicate 1536 (some 1) } }

theorem witness_AllocationTakesFirstFree :
    State.reset.findPlacement 6 6 = some ⟨0, 0, 6⟩ ∧ crowded.findPlacement 0 0 = none ∧
    (((offering .offered 6 6 none).link 131).placement = some ⟨2, 4, 6⟩ ∧ cellIndex 2 4 ∈ (⟨2, 4, 6⟩ : Placement).cells ∧
      cellIndex 2 0 ∉ (⟨2, 4, 6⟩ : Placement).cells) := by decide +kernel

theorem witness_KeyingMarksGrantSent :
    let s (a : Account) := polled a (.handed pollDown) .closed
    let carried : InstructionSet := { grant := some ⟨18, 500⟩ }
    ((s granted).fp.downlink = .handed pollDown ∧ (s granted).account 131 = some granted ∧
      (s granted).lc.exchange = some ⟨.poll granted.instructionSet, 131, kit⟩ ∧ granted.instructionSet.grant = some ⟨18, 500⟩) ∧
    (account3.instructionSet.grant = none ∧ (claimed State.reset (.data 4)).account 131 = none ∧
      { granted with kitId := 5 }.kitId ≠ kit) ∧
    ({ account3 with q := 17 }.pendingGrant = none ∧ { account3 with q := 17 }.withdrawn = none ∧ (17 + 1) % 256 = 18 ∧
      carried.grant = some ⟨18, 500⟩) ∧
    (withdrawing.pendingGrant = none ∧ withdrawing.withdrawn.isSome) ∧
    (∀ carried slot kitId, (claimed State.reset (.data 4)).lc.exchange ≠ some ⟨.poll carried, slot, kitId⟩) ∧
    (polled granted (.keying pollDown []) .closed).fp.downlink = .keying pollDown [] ∧ pollDown.kind ≠ .beacon := by
  refine ⟨?_, ?_, ?_, ?_, fun _ _ _ h => (by cases h), ?_, ?_⟩ <;> decide +kernel

/-- A header block's data bytes, their first byte changed twice: an uncorrectable block. -/
def garbled : Block := plantError (plantError (header 9 3071 0 2 1 0) 0) 1

theorem witness_HeaderBlockTests :
    let slot1 := claimed State.reset (.contention 1)
    let window := polled granted .silent .open
    let heard (s : State) := s.fp.status = .claimed ∧ s.fp.effective ≠ .quiet ∧ s.fp.downlink = .silent ∧ s.fp.reception = none
    ((⟨garbled, true⟩ : HeaderBlock).outside = true ∧ State.reset.fp.status ≠ .claimed ∧
      (claimed State.reset (.data 4)).fp.window = .closed) ∧
    decodeBlock 8 [] = none ∧
    (heard slot1 ∧ slot1.fp.place = .contention 1 ∧ slot1.fp.window = .closed) ∧
    (heard window ∧ window.fp.place = .data 4 ∧ window.fp.window = .open) ∧
    (let late (made : Bool) : State := { window with fp := { window.fp with window := .lateHeader, recordMade := made } }
     heard (late true) ∧ (late true).fp.window = .lateHeader ∧ (late true).fp.recordMade = true ∧ heard (late false)) ∧
    (heard (claimed State.reset .beacon) ∧ (claimed State.reset .beacon).fp.window = .closed) ∧
    decodeBlock 8 garbled = none ∧
    (decodeBlock 8 (header 10 3071 131 2 5 0)).map (fun d => byteAt d.data 6) = some 5 ∧
    (decodeBlock 8 (header 10 3070 131 2 4 0)).map (fun d => field d.data 1 2) = some 3070 ∧
    (decodeBlock 8 (header 10 3071 131 1 4 0)).map (fun d => byteAt d.data 5 % 64) = some 1 ∧
    (decodeBlock 8 (header 9 3071 0 2 1 0)).map (fun d => UpKind.ofCode (byteAt d.data 0)) = some (some .call) ∧
    (decodeBlock 8 (header 13 3071 384 2 4 0)).map (fun d => (field d.data 1 2, byteAt d.data 5 % 64)) = some (3071, 2) := by
  decide +kernel

/-- The reception of a good REPORT, or of a good ECHO of the worked pattern, from kit 131. -/
def hearing (k : UpKind) (n : Nat) (flags : Byte) : FieldReception := ⟨k, 131, n, flags, false, 0⟩

/-- A PROBE of the kit in data slot 4. -/
def probed (w : ReplyWindow) : State :=
  let s := linked (polling account3 (.data 4)) boundLink { probe := some ⟨8965, 2, 7730⟩ }
  { s with
    fp := { s.fp with window := w }
    lc := { s.lc with exchange := some ⟨.probe (some ⟨8965, 2, 7730⟩), 131, kit⟩ } }

/-- A POLL of the kit at CONFIRMED, its entry's bring-up begun in cycle 8,120. -/
def confirming : State :=
  let s := polled granted .silent .open
  let s := s.setLink 131 { boundLink with state := .bringup .confirmed }
  { s with lc := { s.lc with callers := [⟨kit, 131, 1, 0, some 8120, false⟩] } }

theorem witness_GoodReplyIsHit :
    let rep := report 18 5000 800 0 0
    let echo := payloadBlocks (probePattern 8965)
    let wrong := (probePattern 8965).set 17 89
    let premises (s : State) (r : FieldReception) := (receiving s r).fp.place = .data 4 ∧
      (receiving s r).fp.reception = some r ∧ (receiving s r).fp.recordMade = false ∧ r.address = 131
    (premises (polled granted .silent .open) (hearing .report 2 0) ∧ 2 ≤ (payloadBlocks rep).length ∧
      ((hearing .report 2 0).arrival (payloadBlocks rep) true).payload = some (rep ++ List.replicate 5 0)) ∧
    (((polled granted .silent .open).setAccount 131 none).account 131 = none ∧
      ((polled granted .silent .open).setAccount 131 none).lc.exchange = some ⟨.poll granted.instructionSet, 131, kit⟩ ∧
      LinkState.bound ≠ .bringup .confirmed) ∧
    ((polled granted .silent .open).lc.exchange = some ⟨.poll granted.instructionSet, 131, kit⟩ ∧
      (polled granted .silent .open).account 131 = some granted ∧ (polled granted .silent .open).plan 3 = some plan3 ∧
      ((polled granted .silent .open).link 131).state = .bound) ∧
    (premises confirming (hearing .report 2 0) ∧ (confirming.link 131).state = .bringup .confirmed ∧
      confirming.caller 131 = some ⟨kit, 131, 1, 0, some 8120, false⟩) ∧
    (premises (probed .open) (hearing .echo 4 4) ∧
      ((hearing .echo 4 4).arrival echo true).payload = some (probePattern 8965) ∧ (4 : Byte).toNat / 2 % 8 = 2 ∧
      (6 : Byte).toNat / 2 % 8 ≠ 2) ∧
    (((hearing .echo 4 4).arrival (payloadBlocks wrong) true).payload = some wrong ∧ wrong.length = 32 ∧
      wrong ≠ probePattern 8965) ∧
    (let dropped := { probed .open with lc := { (probed .open).lc with exchange := some ⟨.probe none, 131, kit⟩ } }
     premises dropped (hearing .echo 4 4) ∧ dropped.lc.exchange = some ⟨.probe none, 131, kit⟩) := by decide +kernel

/-- An exchange of the bring-up of slot 131's kit, its reply arriving in data slot 4: the link at OFFERED with page 1 held. -/
def replying (a : Account) (k : ExchangeKind) (mismatches : Nat) (r : FieldReception) : State :=
  let s := linked (claimed (holding a) (.data 4)) { boundLink with state := .bringup .offered }
    { progress := some .offered, page1 := some (pageOne 3 6), mismatches := mismatches }
  { s with
    fp := { s.fp with reception := some r }
    lc := { s.lc with callers := [⟨kit, 131, 1, 0, some 8120, false⟩], exchange := some ⟨k, 131, kit⟩ } }

/-- A CONFIRM of the kit's page 1 at a placement. -/
def confirmAt (phase : Nat) : List Byte :=
  be 4 kit ++ be 2 131 ++ be 1 phase ++ [4, 6, 2, 7] ++ be 2 600 ++ [3, 6, 1] ++ be 3 5000 ++ [18] ++ be 3 250

/-- An ABILITY page 1 with a maximum grant and the next-page byte. -/
def abilityOne (grant flags : Nat) : List Byte :=
  [1] ++ be 4 kit ++ [2, 7] ++ be 2 grant ++ [3, 6] ++ be 1 flags ++ be 3 5000 ++ [18] ++ be 3 250

/-- The premises of a discarded reply in BringupRepliesAreTaken. -/
abbrev discards (s : State) : Prop :=
  s.fp.place = .data 4 ∧ s.fp.reception = some ⟨.confirm, 0, 3, 0, false, 0⟩ ∧ s.caller 131 = none

/-- The shared premises of BringupRepliesAreTaken, for a payload of whole blocks from the kit. -/
abbrev replies (a : Account) (k : ExchangeKind) (rk : UpKind) (n : Nat) (payload : List Byte) : Prop :=
  let r : FieldReception := ⟨rk, 0, n, 0, false, 0⟩
  let s := replying a k 2 r
  (s.fp.place = .data 4 ∧ s.fp.reception = some r ∧ s.fp.recordMade = false ∧ s.lc.exchange = some ⟨k, 131, kit⟩ ∧
    s.caller 131 = some ⟨kit, 131, 1, 0, some 8120, false⟩ ∧ s.account 131 = some a ∧ s.plan 3 = some plan3) ∧
  n ≤ (payloadBlocks payload).length ∧
  (r.arrival (payloadBlocks payload) true).payload = some (payload ++ List.replicate (8 * n - payload.length) 0)

theorem witness_BringupRepliesAreTaken :
    let fresh (u : Nat) : Account := { account3 with boundOnce := false, baseline := some u }
    (replies account3 (.invite 1) .ability 3 (abilityOne 600 0) ∧ replies account3 (.invite 1) .ability 3 (abilityOne 1 1) ∧
      replies account3 (.invite 1) .ability 3 (abilityOne 0 1)) ∧
    (replies account3 (.invite 2) .ability 1 ([2] ++ be 4 kit ++ [0xA0, 6]) ∧
      replies account3 (.invite 2) .ability 1 ([2] ++ be 4 kit ++ [0xA0, 7])) ∧
    (replies account3 .offer .confirm 3 (confirmAt 2) ∧ replies account3 .offer .confirm 3 (confirmAt 3) ∧
      replies account3 .offer .ability 3 (abilityOne 600 0)) ∧
    (replies (fresh 5000) .offer .confirm 3 (confirmAt 2) ∧ replies (fresh 8393611) .offer .confirm 3 (confirmAt 2) ∧
      8388608 < meterDistance 5000 8393607 ∧ account3.boundOnce = true ∧ (fresh 0).pendingGrant = none ∧
      (fresh 0).rebaseDue = false) ∧
    (((replying account3 .offer 1 ⟨.confirm, 0, 3, 0, false, 0⟩).linkVol 131).mismatches < 2 ∧
      ((replying account3 .offer 2 ⟨.confirm, 0, 3, 0, false, 0⟩).linkVol 131).mismatches = 2) ∧
    (let gone (k : ExchangeKind) (made : Bool) : State :=
       let s := replying account3 k 0 ⟨.confirm, 0, 3, 0, false, 0⟩
       { s with fp := { s.fp with recordMade := made }, lc := { s.lc with callers := [] } }
     discards (gone .offer true) ∧ (gone .offer true).fp.recordMade = true ∧ (gone .offer false).fp.recordMade = false ∧
     (∀ k ∈ [ExchangeKind.decline, .invite 1, .invite 2, .offer],
       discards (gone k false) ∧ (gone k false).lc.exchange = some ⟨k, 131, kit⟩)) := by
  refine ⟨⟨?_, ?_, ?_⟩, ⟨?_, ?_⟩, ⟨?_, ?_, ?_⟩, ⟨?_, ?_, ?_, ?_, ?_, ?_⟩, ⟨?_, ?_⟩, ?_⟩ <;> decide +kernel

theorem witness_MissingReplyIsMiss :
    let poll := polled granted .silent .open
    let inviting := { poll with lc := { poll.lc with exchange := some ⟨.invite 1, 131, kit⟩ } }
    let short := receiving poll (hearing .report 3 0)
    (poll.lc.exchange = some ⟨.poll granted.instructionSet, 131, kit⟩ ∧ poll.fp.recordMade = false ∧ poll.fp.window = .open ∧
      poll.fp.reception = none) ∧
    ((probed .open).lc.exchange = some ⟨.probe (some ⟨8965, 2, 7730⟩), 131, kit⟩ ∧ (probed .open).fp.window = .open) ∧
    (inviting.lc.exchange = some ⟨.invite 1, 131, kit⟩ ∧ (ExchangeKind.invite 1).isPoll = false) ∧
    (short.fp.window = .open ∧ short.fp.reception = some (hearing .report 3 0) ∧ short.fp.place = .data 4) ∧
    ((payloadBlocks (List.replicate 24 0)).take 2).length < (hearing .report 3 0).blockCount ∧
    (receiving (probed .open) (hearing .echo 4 0)).fp.reception = some (hearing .echo 4 0) ∧
    (((hearing .report 2 0).arrival [garbled, garbled] true).payload = none ∧
      ((hearing .report 2 0).arrival (payloadBlocks (report 18 5000 800 0 0)) true).payload.isSome ∧
      (hearing .ability 2 0).kind ≠ .report ∧ { hearing .report 2 0 with address := 130 }.address ≠ 131) ∧
    (poll.powered = true ∧ poll.fp.busy = false ∧ poll.fp.place = .data 4) ∧
    (∀ gap ∈ [0, 40], let s := { polling granted (.data 23) with ret := { poll.ret with active := ⟨500, 6, gap, 200⟩ } }
     s.fp.place = .data 23 ∧ s.ret.active.gap = gap) ∧
    (let late : State := { poll with fp := { poll.fp with window := .lateHeader } }
     late.fp.window ≠ .closed ∧ late.fp.window = .lateHeader ∧ late.fp.place = .data 4 ∧ late.fp.reception = none ∧
     late.fp.recordMade = false ∧ late.powered = true ∧ late.fp.status = .claimed ∧ late.fp.effective ≠ .quiet ∧
     late.fp.downlink = .silent) ∧
    (decodeBlock 8 garbled = none ∧ (⟨garbled, false⟩ : HeaderBlock).outside = false ∧
      (decodeBlock 8 (header 10 3071 131 2 5 0)).map (fun d => byteAt d.data 6) = some 5 ∧
      (decodeBlock 8 (header 10 3070 131 2 4 0)).map (fun d => field d.data 1 2) = some 3070) ∧
    ({ poll with lc := { poll.lc with exchange := some ⟨.probe none, 131, kit⟩ } } : State).lc.exchange =
      some ⟨.probe none, 131, kit⟩ := by decide +kernel

/-- A header still arriving when its window ran out (R104, R116): a good one opens its reception, a foreign one makes the MISS. -/
theorem test_header_late :
    let late := { polled granted .silent .open with fp := { (polled granted .silent .open).fp with window := .lateHeader } }
    after (exec (.fieldHeaderBlock 0 ⟨header 10 3071 131 2 2 0, false⟩) late) (fun t =>
      t.fp.reception.isSome && (t.link 131).history == []) = true ∧
    after (exec (.fieldHeaderBlock 0 ⟨header 10 3070 131 2 2 0, false⟩) late) (fun t =>
      t.fp.reception.isNone && (t.link 131).history == [.miss]) = true := by decide +kernel

/-- A CALL in reception in contention slot 1, its dominance word sampled as `word`. -/
def calling (s : State) (word : BitVec 16) : State := receiving s ⟨.call, 0, 1, 0, false, word⟩

/-- The Caller Queue full of other kits. -/
def fullQueue : State :=
  let s := claimed (holding account3) (.contention 1)
  { s with lc := { s.lc with callers := (List.range 8).map fun i => ⟨i + 1, i + 1, 0, i, none, false⟩, nextArrival := 8 } }

theorem claimed_kitIdsUnique (p : Place) (w : BitVec 16) : (calling (claimed (holding account3) p) w).KitIdsUnique := by
  have hacc (k : Nat) : (calling (claimed (holding account3) p) w).account k = if k = 131 then some account3 else none := by
    have h := account_congr (t := calling (claimed (holding account3) p) w)
      (s := (State.reset.setPlan 3 (some plan3)).setAccount 131 (some account3)) (by rfl) k
    have h0 : (State.reset.setPlan 3 (some plan3)).account k = none := by
      simp [State.account, State.setPlan, State.reset, Retained.cold, Vector.getElem?_replicate]
      split <;> simp
    rw [h, account_setAccount, h0]
    simp
  refine ⟨fun k a h => ?_, fun j k a b ha hb _ => ?_⟩
  · rw [hacc] at h
    split at h <;> cases h
    decide
  · rw [hacc] at ha hb
    split at ha <;> split at hb <;> simp_all

theorem witness_CallsAreQueued :
    let s := claimed (holding account3) (.contention 1)
    let payload := be 4 kit ++ [1]
    let blocks := payloadBlocks payload
    let word : BitVec 16 := BitVec.ofNat 16 (1 * 16384 + kit % 16384)
    let r : FieldReception := ⟨.call, 0, 1, 0, false, word⟩
    (calling s word).KitIdsUnique ∧ (calling s word).fp.place = .contention 1 ∧ (calling s word).fp.reception = some r ∧
    1 ≤ blocks.length ∧ (r.arrival blocks false).payload = some (payload ++ [0, 0, 0]) ∧
    (byteAt payload 4 % 4 * 16384 + field payload 0 4 % 16384 = word.toNat ∧ 1 * 16384 + kit % 16384 ≠ (word + 1).toNat) ∧
    byteAt (be 4 kit ++ [5]) 4 % 4 = 1 ∧
    ((calling s word).fp.callsOpen = true ∧ (calling s word).fp.effective = .run) ∧
    ({ s with fp := { s.fp with effective := .drain } } : State).fp.effective ≠ .run ∧
    (s.account 131 = some account3 ∧ s.slotOfKit (kit + 1) = none) ∧ s.lc.callers.length < 8 ∧ 8 ≤ fullQueue.lc.callers.length ∧
    (queued (.contention 1) none .waiting 0).lc.callers.find? (fun c => c.kitId == kit) = some ⟨kit, 131, 1, 0, none, false⟩ ∧
    (([] : List Block).length < r.blockCount ∧ (r.arrival [garbled] false).payload = none ∧ (calling s word).powered = true ∧
      (calling s word).fp.busy = false) := by
  refine ⟨claimed_kitIdsUnique _ _, ?_⟩
  decide +kernel

theorem witness_FieldBlocksAndFramesDecode :
    (List.replicate 8 (0xA5 : Byte)).length = 8 ∧ (List.replicate 10 (0xA5 : Byte)).length = 10 ∧ 87 < 8 * 10 + 8 ∧ 71 < 8 * 8 + 8 ∧
    (let payload : List Byte := report 18 5000 800 0 0 ++ List.replicate 5 0
     let blocks := payloadBlocks payload
     let parts := [payload.take 8, payload.drop 8 ++ beBytes 2 (crc16 payload).toNat]
     payload.length = 8 * 2 ∧ blocks.length = 2 ∧ decodeBlock 8 garbled = none ∧
     (∀ i < 2, (decodeBlock (if i + 1 = 2 then 10 else 8) (blocks.getD i [])).map Decoded.data = some (parts.getD i [])) ∧
     beBytes 2 (crc16 (payload.set 0 19)).toNat ≠ beBytes 2 (crc16 payload).toNat ∧
     (∀ first ∈ [1, 2, 3], byteAt [BitVec.ofNat 8 first] 0 = first)) := by decide +kernel

/-- A REPORT whose CRC-16 is another's, or that states one block, has no good payload (R115). -/
theorem test_arrival_refused :
    let payload : List Byte := report 18 5000 800 0 0 ++ List.replicate 5 0
    let other := (payloadBlocks (payload.set 0 19)).set 1 ((payloadBlocks payload).getD 1 [])
    ((hearing .report 2 0).arrival other true).payload = none ∧
    ((hearing .report 1 0).arrival (payloadBlocks (payload.take 8)) true).payload = none := by decide +kernel

end Sys2Proof.Tests
end

section
/-!
The plan handlers (02): what UNLOAD_PLAN (R28) and READ_PLAN (R29) do with an admitted frame.
-/

namespace Sys2Proof.Machine

variable {s : State} {f : RxFrame} {rest : List RxFrame} {e : Entry}

/-! ### An admitted frame reaches its handler (R72, R77, R83) -/

/-- The entry read at DISPOSITION is the one the frame's class has in the table (R79). -/
theorem entry_of_screen_passed (h : screen f s = .passed e) : s.entry f.cls = some e := by
  unfold screen at h
  split at h
  · cases h
  split at h
  · cases h
  split at h
  · cases h
  split at h
  · cases h
  next e' hentry =>
  split at h
  · cases h
  split at h
  · cases h
  cases h
  split at hentry
  · exact hentry
  · cases hentry

/-- Freeing the entry of the receive queue changes nothing the first four stages read. -/
theorem screen_setRxQueue (f : RxFrame) (s : State) (q : List RxFrame) : screen f (s.setRxQueue q) = screen f s := rfl

/-- A handler without subcommands is the only one whose frames its command takes. -/
theorem handler_eq_of_commandFor_eq {h k : Handler} {g : RxFrame} (hnode : k ≠ .nodeControl) (hacc : k ≠ .setAccountState)
    (heq : commandFor h f = commandFor k g) : h = k := by
  cases h
  -- By its subcommand such a frame belongs to the subcommand's own command, or to FRAME_TAKEN.
  case nodeControl | setAccountState => simp only [commandFor] at heq; split at heq <;> cases k <;> simp_all
  all_goals cases k <;> simp_all [commandFor]

/-- An admitted frame is classified by the action of the handler its entry names. -/
theorem Admitted.takeFrame_eq {k : Handler} {action : HandlerAction} (h : Admitted s f rest e) (hk : e.handler = k) :
    s.takeFrame (namesHandler k) action = classify action f (s.setRxQueue rest) := by
  have hnames : namesHandler k f s = true := by simp [namesHandler, entry_of_screen_passed h.passed, hk]
  simp [State.takeFrame, h.front, h.powered, hnames]

/-- An admitted frame whose handler accepts it leaves the handler's state. -/
theorem Admitted.takeFrame_ok {k : Handler} {action : HandlerAction} {t : State} (h : Admitted s f rest e)
    (hk : e.handler = k) (hact : action e.mode f (s.setRxQueue rest) = .ok t) :
    s.takeFrame (namesHandler k) action = t := by
  simp [h.takeFrame_eq hk, classify, screen_setRxQueue, h.passed, hact]

/-- An admitted frame whose handler rejects it is refused at CONTENT under the entry's report mode (R83, R88). -/
theorem Admitted.takeFrame_reject {k : Handler} {action : HandlerAction} {r : Reason} {t : TableId} {i : Nat}
    (h : Admitted s f rest e) (hk : e.handler = k) (hact : action e.mode f (s.setRxQueue rest) = reject r t i) :
    s.takeFrame (namesHandler k) action = (s.setRxQueue rest).refuse e f r t i := by
  simp [h.takeFrame_eq hk, classify, screen_setRxQueue, h.passed, hact, reject, State.refuse]

/-! ### UNLOAD_PLAN (R28): the handler's answers to a payload of one byte, then the plan's users -/

theorem actUnloadPlan_number {mode : ReportMode} (hc : f.count = 1) (hn : 15 < byteAt f.payload 0) :
    actUnloadPlan mode f s = reject .planNumber .plan (byteAt f.payload 0) := by
  simp [actUnloadPlan, hc, hn]

theorem actUnloadPlan_absent {mode : ReportMode} (hc : f.count = 1) (hn : byteAt f.payload 0 ≤ 15)
    (hp : s.plan (byteAt f.payload 0) = none) :
    actUnloadPlan mode f s = reject .noPlan .plan (byteAt f.payload 0) := by
  simp [actUnloadPlan, hc, Nat.not_lt.2 hn, hp]

theorem actUnloadPlan_present {mode : ReportMode} {q : Plan} (hc : f.count = 1)
    (hp : s.plan (byteAt f.payload 0) = some q) :
    actUnloadPlan mode f s = if 0 < q.useCount then reject .planInUse .plan (byteAt f.payload 0)
      else .ok ((s.setPlan (byteAt f.payload 0) none).handReceipt mode f.tag f.slot (.unloadPlan (byteAt f.payload 0))) := by
  have hn : ¬ 15 < byteAt f.payload 0 := by have := plan_range hp; omega
  simp [actUnloadPlan, hc, hn, hp]

/-- An account counts among the users of the plan it names (R22). -/
theorem usersOf_pos {slot : Nat} {a : Account} (ha : s.account slot = some a) : 0 < s.usersOf a.plan := by
  have hmem : some a ∈ s.ret.accounts.toList := by
    rw [State.account, Option.join_eq_some_iff] at ha
    exact Vector.mem_toList_iff.2 (Vector.mem_of_getElem? ha)
  exact List.countP_pos_iff.2 ⟨some a, hmem, by simp⟩

/-- Without a user, a plan may go: every account still names a present plan (R28). -/
theorem plan_isSome_setPlan_none {n : Nat} {q : Plan} (hagree : s.UseCountsAgree) (hp : s.plan n = some q)
    (hq : q.useCount = 0) {slot : Nat} {a : Account} (ha : s.account slot = some a) :
    ((s.setPlan n none).plan a.plan).isSome := by
  obtain ⟨hcount, hpresent⟩ := hagree
  have hne : a.plan ≠ n := by
    rintro rfl
    have := usersOf_pos ha
    have := hcount a.plan q hp
    omega
  rw [plan_setPlan, if_neg fun h => hne h.1]
  exact hpresent slot a ha

/-- Settles O33: each case is one answer of the handler; no account loses its plan, since a use count of 0 means no users. -/
theorem unloadPlanFreesUnusedPlan : Obligations.UnloadPlanFreesUnusedPlan := by
  intro s f rest e h hc u n refused
  have hk : e.handler = .unloadPlan := handler_eq_of_commandFor_eq (g := f) (by decide) (by decide) h.command
  have hrefused {r : Reason} (hact : actUnloadPlan e.mode f u = reject r .plan n) : refused r :=
    congrArg Host.Outcome.next (h.takeFrame_reject hk hact)
  refine ⟨fun hn => ?_, fun hn hp => ?_, fun q hp hq => ?_, fun q hp hq => ?_⟩
  · exact hrefused (actUnloadPlan_number hc hn)
  · exact hrefused (actUnloadPlan_absent hc hn hp)
  · exact hrefused ((actUnloadPlan_present (s := u) hc hp).trans (if_pos hq))
  · have hact := (actUnloadPlan_present (mode := e.mode) (s := u) hc hp).trans (if_neg (by omega))
    refine ⟨u.setPlan n none, congrArg Host.Outcome.next (h.takeFrame_ok hk hact), rfl, ?_, fun hagree slot a ha => ?_⟩
    · rw [plan_setPlan, if_pos ⟨rfl, plan_range hp⟩]
    · exact plan_isSome_setPlan_none (s := u) hagree hp hq ha

/-! ### READ_PLAN (R29): the handler's answers to a payload of one byte, then the image of an absent plan -/

theorem actReadPlan_number {mode : ReportMode} (hc : f.count = 1) (hn : 15 < byteAt f.payload 0) :
    actReadPlan mode f s = reject .planNumber .none 0 := by
  simp [actReadPlan, hc, hn]

theorem actReadPlan_image {mode : ReportMode} (hc : f.count = 1) (hn : byteAt f.payload 0 ≤ 15) :
    actReadPlan mode f s =
      .ok (s.hand ⟨f.tag, f.slot, .planImage (byteAt f.payload 0) (s.plan (byteAt f.payload 0))⟩) := by
  simp [actReadPlan, hc, Nat.not_lt.2 hn]

/-- A value below 256 in a field of one byte is that byte (12). -/
theorem put_one {v : Nat} (hv : v < 256) : put 1 v = [BitVec.ofNat 8 v] := by
  simp [put, beBytes, hv]

/-- Settles O34: the handler's two answers; handing a record over touches the Report Unit alone. -/
theorem readPlanAnswersImage : Obligations.ReadPlanAnswersImage := by
  intro s f rest e h hc u n
  have hk : e.handler = .readPlan := handler_eq_of_commandFor_eq (g := f) (by decide) (by decide) h.command
  refine ⟨fun hn => ?_, fun hn => ?_, fun hn hp => ?_⟩
  · exact congrArg Host.Outcome.next (h.takeFrame_reject hk (actReadPlan_number hc hn))
  · exact ⟨_, congrArg Host.Outcome.next (h.takeFrame_ok hk (actReadPlan_image hc hn)), rfl, sameButReports_hand u _⟩
  · have hput : put 1 n = [BitVec.ofNat 8 n] := put_one (by omega)
    simp [hp, Body.bytes, planImageBytes, hput]

end Sys2Proof.Machine
end

section
/-!
What a step can do (R72 to R188), said once: every command but the loss of the retention supply is made up of the elementary
changes listed here. Each invariant is then a statement about these changes alone.
-/

namespace Sys2Proof.Machine

/-- Two states that differ in the supplies, the queue of commands, the Field Port and the control registers of the retention domain
at most. -/
def SameButControl (s t : State) : Prop :=
  t = { s with
    powered := t.powered
    retentionValid := t.retentionValid
    pending := t.pending
    fp := t.fp
    ret := { s.ret with
      clock := t.ret.clock
      nodeId := t.ret.nodeId
      rank := t.ret.rank
      config := t.ret.config
      requested := t.ret.requested
      active := t.ret.active } }

/-- The elementary changes that the commands are made up of. -/
inductive Change (s : State) : State → Prop where
  /-- Records handed over, tallies, alarms and the other registers of the Report Unit (R165 to R177). -/
  | records {t : State} (same : SameButReports s t) (bounds : s.ReportsBounded → t.ReportsBounded) : Change s t
  /-- The Trunk Port alone (05). -/
  | trunk (tp : TrunkPort) (bounds : s.TrunkBounded → { s with tp := tp }.TrunkBounded) : Change s { s with tp := tp }
  /-- What the field side does to accounts, links, calendar, Caller Queue and counters (03, 07 to 09). -/
  | field {t : State} (effect : LinkEffect s t) (calendar : s.CalendarLawful → t.CalendarLawful) : Change s t
  /-- The Field Port and the control registers (06, 11). -/
  | control {t : State} (same : SameButControl s t) (ranges : s.ControlInRange → t.ControlInRange)
      (cycle : s.CycleBounded → t.CycleBounded) : Change s t
  /-- The volatile state at its start values (R184 step 1). -/
  | cleared : Change s s.clearVolatile
  /-- The retention domain at its cold values (R184 step 2). -/
  | cold : Change s { s with ret := Retained.cold }
  /-- The write of LOAD_DISPOSITION (R76). -/
  | disposition (cls : Nat) (entry : Option Entry) (limit : Option Nat)
      (free : ∀ e, s.entry cls = some e → e.fixed = false) (range : ∀ l, limit = some l → 4 ≤ l ∧ l ≤ 64)
      (sound : ∀ e, entry = some e → e.ceiling ≤ 3 ∧ e.fixed = false ∧ e.weakensControl = false) :
      Change s (s.writeDisposition cls entry limit)
  /-- A plan newly present, or replaced with its use count kept (R27). -/
  | planLoaded (n : Nat) (p : Plan) (number : n ≤ 15) (uses : p.useCount = ((s.plan n).map Plan.useCount).getD 0)
      (ceiling : p.creditCeiling ≤ maxWh) : Change s (s.setPlan n (some p))
  /-- An unused plan that becomes absent (R28). -/
  | planUnloaded (n : Nat) (p : Plan) (present : s.plan n = some p) (unused : p.useCount = 0) : Change s (s.setPlan n none)
  /-- A fresh account in an EMPTY slot, with its plan's use count (R15, R22). -/
  | accountLoaded (slot : Nat) (a : Account) (p : Plan) (range : 1 ≤ slot ∧ slot ≤ 384) (empty : s.account slot = none)
      (kit : a.kitId ≠ 0) (fresh : ∀ k x, s.account k = some x → x.kitId ≠ a.kitId) (plan : s.plan a.plan = some p)
      (one : a.balance = 0 ∨ a.arrears = 0) (ceiling : a.balance ≤ p.creditCeiling) (arrears : a.arrears ≤ maxArrears)
      (grant : a.pendingGrant = none) : Change s ((s.setAccount slot (some a)).mapUseCount a.plan (· + 1))
  /-- An account that becomes EMPTY, with its plan's use count (R16, R22). -/
  | accountUnloaded (slot : Nat) (a : Account) (present : s.account slot = some a) :
      Change s ((s.mapUseCount a.plan (· - 1)).setAccount slot none)
  /-- An account written by an office command that leaves its kit id and its plan (R10 to R12, R18, R37, R43, R67). -/
  | accountWritten (slot : Nat) (a b : Account) (present : s.account slot = some a) (kit : b.kitId = a.kitId)
      (plan : b.plan = a.plan) (figures : s.FiguresSound → b.FiguresSound)
      (grants : a.GrantsExclusive → b.GrantsExclusive) : Change s (s.setAccount slot (some b))
  /-- An account that names another present plan, with both use counts (R13). -/
  | planChanged (slot : Nat) (a : Account) (n : Nat) (present : s.account slot = some a) (plan : (s.plan n).isSome)
      (other : n ≠ a.plan) :
      Change s (((s.mapUseCount a.plan (· - 1)).mapUseCount n (· + 1)).setAccount slot (some { a with plan := n }))

/-- A run of elementary changes. -/
abbrev Reaches : State → State → Prop := Relation.ReflTransGen Change

/-- What every elementary change keeps, a run of them keeps. -/
theorem Reaches.keeps {P : State → Prop} (hP : ∀ s t, Change s t → P s → P t) {s t : State} (h : Reaches s t) (hs : P s) :
    P t := by
  induction h with
  | refl => exact hs
  | tail _ hc ih => exact hP _ _ hc ih

variable {s t u : State}

theorem Change.reaches (h : Change s t) : Reaches s t := .single h

/-! ### Records, counters and links -/

theorem reaches_hand (s : State) (r : Report) : Reaches s (s.hand r) :=
  .single (.records (sameButReports_hand s r) (reportsBounded_hand r))

theorem reaches_handAll (s : State) (rs : List Report) : Reaches s (s.handAll rs) :=
  .single (.records (sameButReports_handAll s rs) (reportsBounded_handAll rs))

theorem reaches_handReceipt (s : State) (m : ReportMode) (tag slot : Nat) (r : ReceiptBody) :
    Reaches s (s.handReceipt m tag slot r) :=
  .single (.records (sameButReports_handReceipt s m tag slot r) (reportsBounded_handReceipt m tag slot r))

theorem reaches_raise (s : State) (c : AlarmCause) : Reaches s (s.raise c) :=
  .single (.records (sameButReports_raise s c) (reportsBounded_raise c))

/-- Registers of the Report Unit rewritten within their bounds. -/
theorem reaches_reports (s : State) (ru : ReportUnit) (h : s.ReportsBounded → { s with ru := ru }.ReportsBounded) :
    Reaches s { s with ru := ru } := .single (.records rfl h)

/-- A change of the field side that leaves calendar, links and Caller Queue alone. -/
theorem reaches_effect (h : LinkEffect s t) (hc : t.ret.calendar = s.ret.calendar) (hl : t.ret.links = s.ret.links)
    (hq : t.lc.callers = s.lc.callers) : Reaches s t := .single (.field h (calendarLawful_congr hc hl hq))

theorem reaches_bump (s : State) (n : CounterName) : Reaches s (s.bump n) := reaches_effect (linkEffect_bump s n) rfl rfl rfl

theorem reaches_mapLinkVol (s : State) (k : Nat) (f : LinkVolatile → LinkVolatile)
    (hf : ∀ v, v.CountersBounded → (f v).CountersBounded) : Reaches s (s.mapLinkVol k f) :=
  reaches_effect (linkEffect_mapLinkVol s k f hf) rfl rfl rfl

theorem reaches_useDataSlot (s : State) (n : Nat) : Reaches s (s.useDataSlot n) :=
  .single (.field (linkEffect_useDataSlot s n) (calendarLawful_useDataSlot n))

theorem reaches_exchangeOutcome (s : State) (r : Option Arrival) : Reaches s (s.exchangeOutcome r) :=
  .single (.field (linkEffect_exchangeOutcome s r) (calendarLawful_exchangeOutcome r))

theorem reaches_takeCall (s : State) (kitId urgency : Nat) : Reaches s (s.takeCall kitId urgency) :=
  .single (.field (linkEffect_takeCall s kitId urgency) (calendarLawful_takeCall kitId urgency))

theorem reaches_linkCycleStart (s : State) : Reaches s s.linkCycleStart :=
  .single (.field (linkEffect_linkCycleStart s) calendarLawful_linkCycleStart)

theorem reaches_keyingNotice (s : State) (slot kitId : Nat) (g : Option Grant) : Reaches s (s.keyingNotice slot kitId g) := by
  refine .single (.field (linkEffect_keyingNotice s slot kitId g) fun hs => ?_)
  unfold State.keyingNotice
  split
  · split
    · exact calendarLawful_setAccount _ _ hs
    · exact hs
  · exact hs

/-! ### The Field Port and the control registers -/

/-- The Field Port rewritten with the shadow and the identity in effect kept. -/
theorem reaches_setFp (s : State) (fp : FieldPort) (hshadow : fp.shadow = s.fp.shadow)
    (hid : fp.idInEffect = s.fp.idInEffect) (hrank : fp.rankInEffect = s.fp.rankInEffect)
    (hcycle : s.CycleBounded → fp.cycle ≤ 65535 ∧ fp.history.length ≤ 16) : Reaches s (s.setFp fp) :=
  .single (.control rfl (fun h => by
    unfold State.ControlInRange at *
    rw [State.setFp_fp, hshadow, hid, hrank]
    exact h) hcycle)

/-- The Field Port rewritten with cycle number, yield history, shadow and identity kept. -/
theorem reaches_setFp_same (s : State) (fp : FieldPort) (hshadow : fp.shadow = s.fp.shadow)
    (hid : fp.idInEffect = s.fp.idInEffect) (hrank : fp.rankInEffect = s.fp.rankInEffect) (hcycle : fp.cycle = s.fp.cycle)
    (hhistory : fp.history = s.fp.history) : Reaches s (s.setFp fp) :=
  reaches_setFp s fp hshadow hid hrank fun h => by rw [hcycle, hhistory]; exact h

theorem reaches_evalMode (s : State) : Reaches s s.evalMode := reaches_setFp_same _ _ rfl rfl rfl rfl rfl

theorem reaches_noteQuiet (s : State) : Reaches s s.noteQuiet := reaches_setFp_same _ _ rfl rfl rfl rfl rfl

theorem reaches_withPending (s : State) (q : List Instr) : Reaches s (s.withPending q) := .single (.control rfl id id)

/-! ### The Trunk Port -/

/-- The receive queue without its oldest entry (R72). -/
theorem trunkBounded_tail {f : RxFrame} {rest : List RxFrame} (hq : s.tp.queue = f :: rest) (h : s.TrunkBounded) :
    (s.setRxQueue rest).TrunkBounded := by
  obtain ⟨hused, hreceiver, hframes⟩ := h
  refine ⟨?_, hreceiver, fun g hg => hframes g (by rw [hq]; exact List.mem_cons_of_mem _ hg)⟩
  unfold TrunkPort.used at *
  rw [hq] at hused
  simp only [State.setRxQueue_tp, List.length_cons] at *
  omega

theorem reaches_tail {f : RxFrame} {rest : List RxFrame} (hq : s.tp.queue = f :: rest) : Reaches s (s.setRxQueue rest) :=
  .single (.trunk _ (trunkBounded_tail hq))

end Sys2Proof.Machine
end

section
/-!
The commands as runs of elementary changes: the trunk's bytes, the starts, the handlers of the Frame Classifier, the field timer and
the receptions; then the step.
-/

namespace Sys2Proof.Machine

variable {s t : State}

/-! ### Bytes on the trunk (R90 to R96) -/

/-- The bound of a reception that a stored byte keeps: an open escape is counted before its pair (log entry 14). -/
theorem Reception.take_bound {r : Reception} (b : Byte) (h : r.content.length + bitNat r.escaped ≤ r.count) :
    (r.take b).content.length + bitNat (r.take b).escaped ≤ (r.take b).count ∧ (r.take b).count ≤ r.count + 1 := by
  unfold Reception.take
  split
  · next he =>
    rw [he] at h
    split <;> simp [bitNat] at * <;> omega
  · split <;> simp_all [bitNat]

/-- A frame that passes its checks has 8 header bytes and at most 48 payload bytes (R94, R95). -/
theorem Reception.close_accepted {r : Reception} {f : RxFrame} (h : r.close = .accepted f) (hb : r.content.length ≤ 60) :
    f.header.length = 8 ∧ f.payload.length ≤ 48 := by
  unfold Reception.close at h
  dsimp only at h
  split at h
  · cases h
  split at h
  · cases h
  split at h
  · cases h
  split at h
  · cases h
  cases h
  simp only [List.length_take, List.length_drop]
  omega

theorem trunkBounded_setReceiver {r : Receiver} (h : s.TrunkBounded) (hr : r.Bounded)
    (hused : (TrunkPort.mk r s.tp.queue s.tp.transmitter).used ≤ 16) : (s.setReceiver r).TrunkBounded :=
  ⟨hused, hr, h.2.2⟩

/-- A receiver that reserves no entry leaves the bounds as they are. -/
theorem trunkBounded_unreserved {r : Receiver} (h : s.TrunkBounded) (hr : ∀ x, r ≠ .receive x) :
    (s.setReceiver r).TrunkBounded := by
  have hlen : s.tp.queue.length ≤ 16 := by
    have hused := h.1
    unfold TrunkPort.used at hused
    omega
  cases r with
  | receive x => exact absurd rfl (hr x)
  | _ => exact trunkBounded_setReceiver h trivial hlen

theorem trunkBounded_setReceiver_receive {r : Reception} (h : s.TrunkBounded) (hlen : s.tp.queue.length < 16)
    (hcount : r.count ≤ 60) (hr : r.content.length + bitNat r.escaped ≤ r.count) :
    (s.setReceiver (.receive r)).TrunkBounded := by
  refine trunkBounded_setReceiver h ⟨hcount, hr⟩ ?_
  simp only [TrunkPort.used]
  omega

theorem reaches_unreserved (s : State) {r : Receiver} (hr : ∀ x, r ≠ .receive x) : Reaches s (s.setReceiver r) :=
  .single (.trunk _ fun h => trunkBounded_unreserved h hr)

theorem queue_lt_of_receive {r : Reception} (h : s.TrunkBounded) (hr : s.tp.receiver = .receive r) :
    s.tp.queue.length < 16 := by
  have hused := h.1
  simp only [TrunkPort.used, hr] at hused
  omega

theorem reaches_contentStep (s : State) (b : Byte) : Reaches s (s.contentStep b) := by
  unfold State.contentStep
  split
  · exact .refl
  · exact .refl
  · split
    · next hlen =>
      have hb := Reception.take_bound (r := Reception.empty) b (Nat.le_refl 0)
      exact .single (.trunk _ fun h =>
        trunkBounded_setReceiver_receive h hlen (hb.2.trans (by decide)) hb.1)
    · exact (reaches_bump s _).trans (reaches_unreserved _ (by simp))
  · next r hr =>
    dsimp only
    split
    · exact (reaches_bump s _).trans (reaches_unreserved _ (by simp))
    · next hcount =>
      refine .single (.trunk _ fun h => ?_)
      have hbound := h.2.1
      rw [hr] at hbound
      exact trunkBounded_setReceiver_receive h (queue_lt_of_receive h hr) (Nat.not_lt.1 hcount)
        (Reception.take_bound b hbound.2).1

theorem reaches_delimiterStep (s : State) : Reaches s s.delimiterStep := by
  unfold State.delimiterStep
  have hopen := reaches_unreserved s (r := .open) (by simp)
  split
  · exact hopen
  · exact hopen
  · exact hopen
  · next r hr =>
    dsimp only
    split
    · exact (hopen.trans (reaches_bump _ _)).trans (reaches_raise _ _)
    · exact hopen.trans (reaches_bump _ _)
    · next f hf =>
      refine .single (.trunk _ fun h => ?_)
      have hbound := h.2.1
      rw [hr] at hbound
      refine ⟨?_, trivial, fun g hg => ?_⟩
      · have := queue_lt_of_receive h hr
        simp only [TrunkPort.used, State.setReceiver_tp, List.length_append, List.length_singleton]
        omega
      · rcases List.mem_append.1 hg with hg | hg
        · exact h.2.2 g hg
        · rw [List.mem_singleton.1 hg]
          exact Reception.close_accepted hf (by have := hbound.1; have := hbound.2; omega)

theorem reaches_receiveByte (s : State) (b : Byte) : Reaches s (s.receiveByte b) := by
  unfold State.receiveByte
  split
  · exact .refl
  · split
    · exact reaches_delimiterStep s
    · exact reaches_contentStep s b

theorem reaches_setTransmitter (s : State) (x : Transmitter) : Reaches s (s.setTransmitter x) := .single (.trunk _ id)

theorem reaches_takeRecord (s : State) : Reaches s s.takeRecord := by
  unfold State.takeRecord
  split
  · refine (reaches_reports s { s.ru with holder := none } fun h => ?_).trans (reaches_setTransmitter _ _)
    exact ⟨h.1, by simp, h.2.2⟩
  · next hq =>
    refine (reaches_reports s { s.ru with queue := _ } fun h => ?_).trans (reaches_setTransmitter _ _)
    refine ⟨?_, h.2⟩
    have := h.1
    rw [hq, List.length_cons] at this
    dsimp only
    omega
  · exact .refl

/-! ### Starts (R184) -/

theorem linkEffect_links (s : State) (links : Vector LinkRetained 384) :
    LinkEffect s { s with ret := { s.ret with links := links } } :=
  ⟨rfl, rfl, rfl, rfl, rfl, rfl, rfl, fun _ => .refl _, reportsBounded_congr rfl, callersOrdered_congr rfl rfl,
    countersBounded_congr rfl rfl⟩

theorem linkEffect_silenceLinks (s : State) : LinkEffect s s.silenceLinks := by
  have hstep (s : State) (k : Nat) : LinkEffect s (s.releaseBringup k) := by
    unfold State.releaseBringup
    split
    · exact linkEffect_release s k
    · exact .refl s
  unfold State.silenceLinks
  exact (linkEffect_foldl _ hstep slotIndices s).trans (linkEffect_links (slotIndices.foldl State.releaseBringup s) _)

theorem reaches_silenceLinks (s : State) : Reaches s s.silenceLinks :=
  .single (.field (linkEffect_silenceLinks s) calendarLawful_silenceLinks)

theorem controlInRange_completeStart (h : s.ControlInRange) : s.completeStart.ControlInRange := by
  obtain ⟨hactive, hshadow, hconfig, hclock, hid, hrank, -, -⟩ := h
  exact ⟨hactive, hshadow, hconfig, hclock, hid, hrank, hid, hrank⟩

theorem reaches_start (s : State) (kind : StartKind) (cause : StartCause) (tag : Nat) : Reaches s (s.start kind cause tag) := by
  have hraise (cs : List AlarmCause) (s : State) : Reaches s (cs.foldl State.raise s) := by
    induction cs generalizing s with
    | nil => exact .refl
    | cons c cs ih => exact (reaches_raise s c).trans (ih _)
  have hrest (s : State) (r : Report) : Reaches s (kind.causes.foldl State.raise (s.hand r)).completeStart :=
    ((reaches_hand s r).trans (hraise _ _)).trans (.single (.control rfl controlInRange_completeStart id))
  have hclear : Reaches s s.clearVolatile := .single .cleared
  unfold State.start State.startRetention
  cases kind with
  | cold =>
    have hcold : Reaches s.clearVolatile { s.clearVolatile with ret := Retained.cold } := .single .cold
    exact (hclear.trans hcold).trans (hrest { s.clearVolatile with ret := Retained.cold } _)
  | warm => exact (hclear.trans (reaches_silenceLinks _)).trans (hrest s.clearVolatile.silenceLinks _)

/-! ### Handlers -/

/-- A handler whose accepted frames are runs of changes. -/
def Handles (admits : RxFrame → State → Bool) (action : HandlerAction) : Prop :=
  ∀ (u : State) (f : RxFrame) (e : Entry) (t : State), admits f u = true → screen f u = .passed e →
    action e.mode f u = .ok t → Reaches u t

theorem reaches_takeFrame {admits : RxFrame → State → Bool} {action : HandlerAction}
    (hadmits : ∀ f s rest, admits f (s.setRxQueue rest) = admits f s) (h : Handles admits action) (s : State) :
    Reaches s (s.takeFrame admits action) := by
  refine takeFrame_induct (P := Reaches s) .refl (fun rest ⟨f, hq⟩ => reaches_tail hq)
    (fun u hu => hu.trans (reaches_bump u _)) (fun u r hu => hu.trans (reaches_hand u r)) ?_
  rintro _ f e t hu ha ⟨rest, -, rfl⟩ he ht
  exact hu.trans (h _ f e t (by rw [hadmits]; exact ha) he ht)

section Handlers

variable {admits : RxFrame → State → Bool}

theorem handles_unknown : Handles admits actUnknown := fun _ _ _ _ _ _ h => (actUnknown_ok h).elim

theorem handles_discard : Handles admits actDiscard := fun u _ _ _ _ _ h => by
  rw [actDiscard_ok h]; exact reaches_handReceipt u _ _ _ _

theorem handles_setIdentity : Handles admits actSetIdentity := fun u f e t _ _ h => by
  obtain ⟨id, rank, b, -, hid, hrank, rfl⟩ := actSetIdentity_ok h
  refine .trans (.single (.control (t := { u with ret := { u.ret with nodeId := id, rank := rank } }) rfl (fun hc => ?_) fun hc => hc)) (reaches_handReceipt _ _ _ _ _)
  obtain ⟨hactive, hshadow, hconfig, hclock, -, -, hinEffect⟩ := hc
  exact ⟨hactive, hshadow, hconfig, hclock, hid, hrank, hinEffect⟩

theorem handles_setConfig : Handles admits actSetConfig := fun u f e t _ _ h => by
  obtain ⟨c, hc, rfl⟩ := actSetConfig_ok h
  refine .trans (.single (.control (t := { u with ret := { u.ret with config := c } }) rfl (fun hr => ?_) fun hr => hr)) (reaches_handReceipt _ _ _ _ _)
  obtain ⟨hactive, hshadow, -, hrest⟩ := hr
  exact ⟨hactive, hshadow, hc, hrest⟩

theorem handles_setCycle : Handles admits actSetCycle := fun u f e t _ _ h => by
  obtain ⟨p, b, hp, rfl⟩ := actSetCycle_ok h
  refine .trans (.single (.control (t := { u with fp := { u.fp with shadow := some p } }) rfl (fun hr => ?_) fun hr => hr)) (reaches_handReceipt _ _ _ _ _)
  obtain ⟨hactive, -, hrest⟩ := hr
  exact ⟨hactive, by simpa using hp, hrest⟩

theorem handles_setMode : Handles admits actSetMode := fun u f e t _ _ h => by
  obtain ⟨m, b, rfl⟩ := actSetMode_ok h
  exact .trans (.single (.control (t := { u with ret := { u.ret with requested := m } }) rfl (fun hr => hr) fun hr => hr)) (reaches_handReceipt _ _ _ _ _)

theorem handles_setTime : Handles admits actSetTime := fun u f e t _ _ h => by
  obtain ⟨day, second, b, hday, hsecond, rfl⟩ := actSetTime_ok h
  refine .trans (.single (.control (t := { u with ret := { u.ret with clock := ⟨true, day, second⟩ } }) rfl (fun hr => ?_) fun hr => hr)) (reaches_handReceipt _ _ _ _ _)
  obtain ⟨hactive, hshadow, hconfig, -, hrest⟩ := hr
  exact ⟨hactive, hshadow, hconfig, ⟨hday, hsecond, fun h => by cases h⟩, hrest⟩

theorem handles_clearEscalation : Handles admits actClearEscalation := fun u f e t _ _ h => by
  obtain ⟨b, rfl⟩ := actClearEscalation_ok h
  exact (reaches_reports u { u.ru with escalated := false } fun hr => hr).trans (reaches_handReceipt _ _ _ _ _)

theorem handles_setAlarmMask : Handles admits actSetAlarmMask := fun u f e t _ _ h => by
  obtain ⟨m, rfl⟩ := actSetAlarmMask_ok h
  exact (reaches_reports u { u.ru with mask := m } fun hr => hr).trans (reaches_handReceipt _ _ _ _ _)

/-- Cleared tallies keep their bound (R168, R176). -/
theorem reportsBounded_clearStatus (a : AlarmFlags) (m : BitVec 5) (h : s.ReportsBounded) :
    (s.clearStatus a m).ReportsBounded := by
  obtain ⟨hqueue, hholder, hreceipt, hrefusal, hreply, hother, hadvisory⟩ := h
  refine ⟨hqueue, hholder, ?_⟩
  simp only [State.clearStatus, Tallies.clear]
  refine ⟨?_, ?_, ?_, ?_, ?_⟩ <;> split <;> omega

theorem handles_readStatus : Handles admits actReadStatus := fun u f e t _ _ h => by
  obtain ⟨r, rfl | ⟨a, m, rfl⟩⟩ := actReadStatus_ok h
  · exact reaches_hand u r
  · exact (reaches_reports u _ (reportsBounded_clearStatus a m)).trans (reaches_hand _ r)

theorem handles_readCounters : Handles admits actReadCounters := fun u f e t _ _ h => by
  obtain ⟨r, rfl | rfl | rfl⟩ := actReadCounters_ok h
  · exact reaches_hand u r
  · refine .trans (reaches_effect (t := { u with counters := {} }) ?_ rfl rfl rfl) (reaches_hand _ r)
    refine ⟨rfl, rfl, rfl, rfl, rfl, rfl, rfl, fun _ => .refl _, reportsBounded_congr rfl, callersOrdered_congr rfl rfl,
      fun hc => ⟨fun n => ?_, hc.2⟩⟩
    cases n <;> exact Nat.zero_le _
  · refine .trans (reaches_mapLinkVol u f.slot _ fun v _ => ?_) (reaches_hand _ r)
    simp [LinkVolatile.CountersBounded, LinkVolatile.zeroCounters]

theorem handles_resetNode : Handles admits actResetNode := fun u f e t _ _ h => by
  obtain ⟨kind, rfl⟩ := actResetNode_ok h
  exact reaches_start u _ _ _

/-- The Caller Queue emptied, with every bring-up part (R137 step 1). -/
theorem linkEffect_emptyCallers (s : State) : LinkEffect s s.emptyCallers where
  powered := rfl
  retentionValid := rfl
  tp := rfl
  pending := rfl
  freeCount := rfl
  fp := rfl
  ret := rfl
  accounts _ := .refl _
  reports := reportsBounded_congr rfl
  callers _ := by simp [State.CallersOrdered, State.emptyCallers]
  counters h := by
    refine ⟨h.1, fun k => ?_⟩
    have := h.2 k
    simp only [State.linkVol, State.emptyCallers, Vector.getElem?_map] at *
    cases hk : s.lc.links[slotPos k]? with
    | none => simp [LinkVolatile.CountersBounded]
    | some v => rw [hk] at this; exact this

theorem handles_fieldReset : Handles admits actFieldReset := fun u f e t _ _ h => by
  obtain ⟨b, rfl⟩ := actFieldReset_ok h
  refine .trans ?_ (reaches_handReceipt _ _ _ _ _)
  have hempty : Reaches u u.emptyCallers :=
    .single (.field (linkEffect_emptyCallers u) (calendarLawful_callers rfl rfl (by simp [State.emptyCallers])))
  have hdrop (ks : List Nat) (s : State) : Reaches s (ks.foldl State.dropProbe s) := by
    induction ks generalizing s with
    | nil => exact .refl
    | cons k ks ih => exact .trans (.single (.field (linkEffect_dropProbe s k) (calendarLawful_dropProbe k))) (ih _)
  exact (hempty.trans (reaches_silenceLinks _)).trans (hdrop _ _)

theorem handles_loadDisposition : Handles admits actLoadDisposition := fun u f e t _ _ h => by
  obtain ⟨cls, w, limit, b, -, hfree, hrange, hsound, rfl⟩ := actLoadDisposition_ok h
  exact .trans (.single (.disposition cls w limit hfree hrange hsound)) (reaches_handReceipt _ _ _ _ _)

theorem handles_loadPlan : Handles admits actLoadPlan := fun u f e t _ _ h => by
  obtain ⟨n, p, b, hn, huses, hceiling, rfl⟩ := actLoadPlan_ok h
  exact .trans (.single (.planLoaded n p hn huses hceiling)) (reaches_handReceipt _ _ _ _ _)

theorem handles_unloadPlan : Handles admits actUnloadPlan := fun u f e t _ _ h => by
  obtain ⟨n, p, b, -, hp, huses, rfl⟩ := actUnloadPlan_ok h
  exact .trans (.single (.planUnloaded n p hp huses)) (reaches_handReceipt _ _ _ _ _)

theorem handles_readPlan : Handles admits actReadPlan := fun u f e t _ _ h => by
  obtain ⟨r, rfl⟩ := actReadPlan_ok h
  exact reaches_hand u r

theorem handles_probeKit : Handles admits actProbeKit := fun u f e t _ _ h => by
  obtain ⟨p, b, rfl⟩ := actProbeKit_ok h
  have hheld : Reaches u (u.mapLinkVol f.slot fun v => { v with probe := some p }) :=
    reaches_mapLinkVol u f.slot _ fun v hv => hv
  exact hheld.trans (reaches_handReceipt _ _ _ _ _)

end Handlers

end Sys2Proof.Machine
end

section
/-!
The operations on one account record (R1 to R8, R34 to R66): what each makes of the energy figures in closed form, and that each
keeps the holder, the soundness of the figures (R1, R3) and the exclusion of grants (R45, R51).
-/

namespace Sys2Proof.Machine

variable {a b c : Account}

/-! ### The shared returns and draws in closed form -/

/-- The NOTICE of a sum above the top of the balance (R3). -/
def clampNotices (sum : Nat) : List NoticeBody := if maxWh < sum then [.balanceClamped (sum - maxWh)] else []

/-- The NOTICE of a sum above the top of the arrears (R55, R57). -/
def unbookedNotices (sum : Nat) : List NoticeBody := if maxArrears < sum then [.arrearsClamped (sum - maxArrears)] else []

/-- A return pays the arrears first and clamps the balance (R3). -/
theorem Account.returnToBalance_eq (a : Account) (x : Nat) : a.returnToBalance x =
    ({ a with
        balance := min (a.balance + (x - min x a.arrears)) maxWh
        arrears := a.arrears - min x a.arrears },
      clampNotices (a.balance + (x - min x a.arrears))) := by
  unfold Account.returnToBalance clampNotices
  dsimp only
  split
  · next h => rw [Nat.min_eq_right h.le]
  · next h => rw [Nat.min_eq_left (Nat.not_lt.1 h)]

/-- A draw takes the balance first and books the shortfall as arrears (R55, R57). -/
theorem Account.drawBalance_eq (a : Account) (x : Nat) : a.drawBalance x =
    ({ a with
        balance := a.balance - min x a.balance
        arrears := min (a.arrears + (x - min x a.balance)) maxArrears },
      unbookedNotices (a.arrears + (x - min x a.balance))) := by
  unfold Account.drawBalance Account.addArrears unbookedNotices
  dsimp only
  split
  · next h => rw [Nat.min_eq_right h.le]
  · next h => rw [Nat.min_eq_left (Nat.not_lt.1 h)]

/-- A cancelled grant is returned; an unsent one steps q back, a sent one becomes the withdrawn grant (R7). -/
theorem Account.cancelPending_some {g : PendingGrant} (h : a.pendingGrant = some g) : a.cancelPending =
    ({ a with
        balance := min (a.balance + (g.amount - min g.amount a.arrears)) maxWh
        arrears := a.arrears - min g.amount a.arrears
        pendingGrant := none
        withdrawn := if g.sent then some ⟨g.seq, g.amount⟩ else a.withdrawn
        q := if g.sent then a.q else seqPred a.q },
      clampNotices (a.balance + (g.amount - min g.amount a.arrears))) := by
  simp only [Account.cancelPending, h, Account.returnToBalance_eq]
  cases g.sent <;> rfl

theorem Account.cancelPending_none (h : a.pendingGrant = none) : a.cancelPending = (a, []) := by
  simp only [Account.cancelPending, h]

theorem Account.cancelPending_pendingGrant (a : Account) : a.cancelPending.1.pendingGrant = none := by
  cases h : a.pendingGrant with
  | none => rw [cancelPending_none h]; exact h
  | some g => rw [cancelPending_some h]

/-! ### What an operation keeps of an account -/

/-- From `a` to `b` the holder stays, and the figures stay sound and the grants exclusive. -/
structure AccountKept (a b : Account) : Prop where
  kit : b.kitId = a.kitId
  plan : b.plan = a.plan
  figures : a.FiguresSound → b.FiguresSound
  grants : a.GrantsExclusive → b.GrantsExclusive

/-- From `a` to `b` the holder stays and the grants stay exclusive; the figures are the operation's own matter. -/
structure HolderKept (a b : Account) : Prop where
  kit : b.kitId = a.kitId
  plan : b.plan = a.plan
  grants : a.GrantsExclusive → b.GrantsExclusive

namespace AccountKept

theorem refl (a : Account) : AccountKept a a := ⟨rfl, rfl, id, id⟩

theorem trans (h : AccountKept a b) (k : AccountKept b c) : AccountKept a c :=
  ⟨k.kit.trans h.kit, k.plan.trans h.plan, k.figures ∘ h.figures, k.grants ∘ h.grants⟩

/-- An operation on fields that neither the figures nor the grants read. -/
theorem of_same (hkit : b.kitId = a.kitId) (hplan : b.plan = a.plan) (hbalance : b.balance = a.balance)
    (harrears : b.arrears = a.arrears) (hstate : b.state = a.state) (hpending : b.pendingGrant = a.pendingGrant)
    (hwithdrawn : b.withdrawn = a.withdrawn) : AccountKept a b := by
  refine ⟨hkit, hplan, fun h => ?_, fun h => ?_⟩
  · unfold Account.FiguresSound; rw [hbalance, harrears]; exact h
  · unfold Account.GrantsExclusive; rw [hpending, hstate, hwithdrawn]; exact h

/-- An operation after which no grant is pending keeps the grants exclusive. -/
theorem of_no_grant (hkit : b.kitId = a.kitId) (hplan : b.plan = a.plan) (hfigures : a.FiguresSound → b.FiguresSound)
    (hpending : b.pendingGrant = none) : AccountKept a b :=
  ⟨hkit, hplan, hfigures, fun _ h => by rw [hpending] at h; cases h⟩

/-- An account outside ACTIVE holds no grant, so its state may change. -/
theorem of_inactive (hstate : a.state ≠ .active) (hkit : b.kitId = a.kitId) (hplan : b.plan = a.plan)
    (hfigures : a.FiguresSound → b.FiguresSound) (hpending : b.pendingGrant = a.pendingGrant) : AccountKept a b :=
  ⟨hkit, hplan, hfigures, fun h hp => absurd (h (hpending ▸ hp)).1 hstate⟩

theorem holder (h : AccountKept a b) : HolderKept a b := ⟨h.kit, h.plan, h.grants⟩

end AccountKept

theorem figuresSound_return (x : Nat) (h : a.FiguresSound) : (a.returnToBalance x).1.FiguresSound := by
  rw [Account.returnToBalance_eq]
  obtain ⟨hone, hbalance, harrears⟩ := h
  simp only [Account.FiguresSound, maxWh, maxArrears] at *
  omega

theorem figuresSound_draw (x : Nat) (h : a.FiguresSound) : (a.drawBalance x).1.FiguresSound := by
  rw [Account.drawBalance_eq]
  obtain ⟨hone, hbalance, harrears⟩ := h
  simp only [Account.FiguresSound, maxWh, maxArrears] at *
  omega

theorem kept_return (a : Account) (x : Nat) : AccountKept a (a.returnToBalance x).1 := by
  refine ⟨?_, ?_, figuresSound_return x, ?_⟩ <;> rw [Account.returnToBalance_eq]
  exact id

theorem kept_draw (a : Account) (x : Nat) : AccountKept a (a.drawBalance x).1 := by
  refine ⟨?_, ?_, figuresSound_draw x, ?_⟩ <;> rw [Account.drawBalance_eq]
  exact id

theorem kept_cancelPending (a : Account) : AccountKept a a.cancelPending.1 := by
  cases h : a.pendingGrant with
  | none => rw [Account.cancelPending_none h]; exact .refl a
  | some g =>
    have hf := figuresSound_return (a := a) g.amount
    rw [Account.returnToBalance_eq] at hf
    rw [Account.cancelPending_some h]
    exact .of_no_grant rfl rfl hf rfl

/-- Entry to SUSPENDED or QUARANTINED (R7). -/
theorem kept_enterHold (a : Account) (st : AccountState) : AccountKept a (a.enterHold st).1 :=
  .of_no_grant (kept_cancelPending a).kit (kept_cancelPending a).plan (kept_cancelPending a).figures
    a.cancelPending_pendingGrant

/-- The state test (R6): an account that locks holds no grant, and a LOCKED one held none. -/
theorem kept_creditTest (a : Account) : AccountKept a a.creditTest := by
  unfold Account.creditTest
  split
  · split
    · exact .refl a
    · next h =>
      refine .of_no_grant rfl rfl id ?_
      simp only [Account.holdsCredit, Bool.or_eq_true, not_or, Bool.not_eq_true, Option.isSome_eq_false_iff,
        Option.isNone_iff_eq_none] at h
      exact h.1.2
  · next hlocked =>
    split
    · exact .of_inactive (by rw [hlocked]; decide) rfl rfl id rfl
    · exact .refl a
  all_goals exact .refl a

/-! ### Office commands (R10 to R12, R37, R43) -/

theorem kept_stateWrite (h : StateWrite a b) : AccountKept a b := by
  cases h with
  | suspend => exact kept_enterHold a _
  | resume hs =>
    have hinactive : a.state ≠ .active := by rw [hs]; decide
    unfold Account.resume
    split
    · split <;> exact .of_inactive hinactive rfl rfl id rfl
    · exact .of_inactive hinactive rfl rfl id rfl
  | clear rebase hs =>
    have hinactive : a.state ≠ .active := by rw [hs]; decide
    exact .of_inactive hinactive rfl rfl id rfl

/-- A check passed in an `Except`: the answer is that of what follows the check. -/
theorem ite_error_eq_ok {ε α : Type} {p : Prop} [Decidable p] {r : ε} {x : Except ε α} {y : α} :
    (if p then .error r else x) = .ok y ↔ ¬ p ∧ x = .ok y := by
  split <;> simp_all

/-- What a conversion without a refusal comes to (R33 to R36). -/
theorem convert_ok {p : Plan} {clock : Clock} {v : VoucherPayload} {w : Conversion} (h : a.convert p clock v = .ok w) :
    p.fee * 1000 ≤ v.amount * 1000 + a.carry ∧ w.rolled = rollDue clock p.periodLength a.periodStart ∧
      w.walk = walkTiers p.tiers (v.amount * 1000 + a.carry - p.fee * 1000) (if w.rolled then 0 else a.periodPurchase) ∧
      w.pay = min w.walk.credit a.arrears ∧ w.balance = a.balance + w.walk.credit - w.pay ∧
      w.arrears = a.arrears - w.pay ∧ w.balance ≤ p.creditCeiling := by
  unfold Account.convert at h
  obtain ⟨-, h⟩ := ite_error_eq_ok.1 h
  obtain ⟨-, h⟩ := ite_error_eq_ok.1 h
  split at h
  · cases h
  · cases h
  obtain ⟨hfee, h⟩ := ite_error_eq_ok.1 h
  obtain ⟨hceiling, h⟩ := ite_error_eq_ok.1 h
  cases h
  exact ⟨Nat.not_lt.1 hfee, rfl, rfl, rfl, rfl, rfl, Nat.not_lt.1 hceiling⟩

/-- A conversion leaves a balance within the plan's ceiling, and none beside arrears (R34, R36). -/
theorem convert_figures {p : Plan} {clock : Clock} {v : VoucherPayload} {w : Conversion} (h : a.convert p clock v = .ok w)
    (hone : a.balance = 0 ∨ a.arrears = 0) :
    (w.balance = 0 ∨ w.arrears = 0) ∧ w.balance ≤ p.creditCeiling ∧ w.arrears ≤ a.arrears := by
  obtain ⟨-, -, -, hpay, hbalance, harrears, hceiling⟩ := convert_ok h
  omega

theorem commitVoucher_figures (a : Account) (v : VoucherPayload) (w : Conversion) :
    (a.commitVoucher v w).balance = w.balance ∧ (a.commitVoucher v w).arrears = w.arrears := by
  unfold Account.commitVoucher
  dsimp only
  split <;> exact ⟨rfl, rfl⟩

theorem holderKept_commitVoucher (a : Account) (v : VoucherPayload) (w : Conversion) :
    HolderKept a (a.commitVoucher v w) := by
  unfold Account.commitVoucher
  dsimp only
  split
  · next hlocked => exact ⟨rfl, rfl, fun h hp => absurd (h hp).1 (by rw [hlocked.1]; decide)⟩
  · exact ⟨rfl, rfl, id⟩

/-- An adjustment leaves a balance within the plan's ceiling or below what it was, and none beside arrears (R41, R42). -/
theorem adjust_figures {p : Plan} {d : Int} {g : Nat} {j : Adjustment} (h : a.adjust p d g = .ok j)
    (hone : a.balance = 0 ∨ a.arrears = 0) :
    (j.balance = 0 ∨ j.arrears = 0) ∧ (j.balance ≤ p.creditCeiling ∨ j.balance ≤ a.balance) ∧ j.arrears ≤ a.arrears := by
  unfold Account.adjust at h
  split at h
  · cases h
  split at h
  · cases h
  dsimp only at h
  split at h
  · split at h
    · cases h
    cases h
    dsimp only
    omega
  · cases h
    dsimp only
    omega

theorem creditTest_figures (a : Account) : a.creditTest.balance = a.balance ∧ a.creditTest.arrears = a.arrears := by
  unfold Account.creditTest
  split
  · split <;> exact ⟨rfl, rfl⟩
  · split <;> exact ⟨rfl, rfl⟩
  all_goals exact ⟨rfl, rfl⟩

theorem commitAdjustment_figures (a : Account) (j : Adjustment) :
    (a.commitAdjustment j).balance = j.balance ∧ (a.commitAdjustment j).arrears = j.arrears := creditTest_figures _

theorem holderKept_commitAdjustment (a : Account) (j : Adjustment) : HolderKept a (a.commitAdjustment j) :=
  have h := kept_creditTest { a with balance := j.balance, arrears := j.arrears }
  ⟨h.kit, h.plan, h.grants⟩

/-! ### Poll request and keying notice (R44 to R50) -/

theorem kept_expireRelay (a : Account) (slot : Nat) : AccountKept a (a.expireRelay slot).1 := by
  unfold Account.expireRelay
  split
  · exact .refl a
  · split
    · exact .of_same rfl rfl rfl rfl rfl rfl rfl
    · exact .refl a

theorem kept_createGrant (a : Account) (p : Plan) (l : LinkRetained) (m : Mode) : AccountKept a (a.createGrant p l m) := by
  unfold Account.createGrant
  split
  · exact .refl a
  · split
    · next h =>
      simp only [Account.mayGrant, Bool.and_eq_true, beq_iff_eq, Option.isNone_iff_eq_none] at h
      obtain ⟨⟨⟨⟨⟨⟨hactive, -⟩, -⟩, -⟩, hwithdrawn⟩, -⟩, -⟩ := h
      refine ⟨rfl, rfl, fun h => ?_, fun _ _ => ⟨hactive, hwithdrawn⟩⟩
      obtain ⟨hone, hbalance, harrears⟩ := h
      simp only [Account.FiguresSound, maxWh, maxArrears] at *
      omega
    · exact .refl a

theorem kept_keyed (a : Account) (g : Grant) : AccountKept a (a.keyed g) := by
  unfold Account.keyed
  split
  · next p hp =>
    split
    · exact ⟨rfl, rfl, id, fun h _ => h (by rw [hp]; rfl)⟩
    · exact .refl a
  · next hp =>
    split
    · exact .of_no_grant rfl rfl id hp
    · exact .refl a

/-! ### Reconciliation, adoption and bind (R5, R54 to R64, R147) -/

theorem kept_stage1 (r : Recon) (applied : Nat) : AccountKept r.acct (r.stage1 applied).acct := by
  unfold Recon.stage1
  dsimp only
  split
  · split
    · exact .of_no_grant rfl rfl id rfl
    · split <;> exact .refl _
  · next hp _ =>
    have hdraw (x : Nat) : (r.acct.drawBalance x).1.pendingGrant = none := by rw [Account.drawBalance_eq]; exact hp
    split
    · next w _ _ =>
      exact .of_no_grant (kept_draw r.acct w.amount).kit (kept_draw r.acct w.amount).plan
        (kept_draw r.acct w.amount).figures (hdraw w.amount)
    · split
      · exact .of_no_grant rfl rfl id hp
      · exact .refl _
  · split <;> exact .refl _

theorem limitTest_acct (r : Recon) (limit : Nat) : (r.limitTest limit).acct = r.acct := by
  unfold Recon.limitTest
  split <;> rfl

/-- A baseline is read by neither figures nor grants. -/
theorem kept_baseline (a : Account) (meter : Option Nat) : AccountKept a { a with baseline := meter } :=
  .of_same rfl rfl rfl rfl rfl rfl rfl

theorem kept_stage2 (r : Recon) (p : Plan) (meter : Nat) : AccountKept r.acct (r.stage2 p meter).1.acct := by
  have hadopt : AccountKept r.acct { r.acct with baseline := some meter, rebaseDue := false } :=
    .of_same rfl rfl rfl rfl rfl rfl rfl
  have hcharge (d : Nat) : AccountKept r.acct (r.charge d meter p.usageStep).acct := by
    have hused := AccountKept.of_same (a := r.acct) (b := { r.acct with allowance := r.acct.allowance - min d r.acct.allowance })
      rfl rfl rfl rfl rfl rfl rfl
    have hdraw := hused.trans (kept_draw _ (d - min d r.acct.allowance))
    exact hdraw.trans (kept_baseline _ (some meter))
  unfold Recon.stage2
  dsimp only
  split
  · rw [limitTest_acct]; exact hadopt
  · split
    · rw [limitTest_acct]; exact hadopt
    · split
      · exact .refl _
      · rw [limitTest_acct]; exact hcharge _

theorem kept_stage3 (r : Recon) (carried : InstructionSet) (rep : KitReport) :
    AccountKept r.acct (r.stage3 carried rep).1.acct := by
  unfold Recon.stage3
  dsimp only
  split
  · split
    · have hused := AccountKept.of_same (a := r.acct)
        (b := { r.acct with allowance := r.acct.allowance - rep.discarded }) rfl rfl rfl rfl rfl rfl rfl
      exact (hused.trans (kept_return _ rep.discarded)).trans (.of_same rfl rfl rfl rfl rfl rfl rfl)
    · exact .refl _
  · exact .refl _

theorem kept_stage4 (r : Recon) (remaining : Nat) : AccountKept r.acct (r.stage4 remaining).acct := by
  unfold Recon.stage4
  split
  · exact .refl _
  · split
    · exact .of_same rfl rfl rfl rfl rfl rfl rfl
    · exact .refl _

theorem kept_figures (r : Recon) (p : Plan) (rep : KitReport) (carried : InstructionSet) :
    AccountKept r.acct (r.figures p rep carried).acct := by
  have h1 := kept_stage1 r rep.applied
  have h2 := h1.trans (kept_stage2 _ p rep.meter)
  have h3 := h2.trans (kept_stage3 _ carried rep)
  unfold Recon.figures
  dsimp only
  split
  · exact h1
  · split
    · exact h2
    · split
      · exact h3
      · exact h3.trans (kept_stage4 _ rep.remaining)

theorem kept_latchEvents (a : Account) (slot : Nat) (e : KitEvents) : AccountKept a (a.latchEvents slot e).1 :=
  .of_same rfl rfl rfl rfl rfl rfl rfl

theorem kept_takeCarried (a : Account) (slot : Nat) (i : InstructionSet) : AccountKept a (a.takeCarried slot i).1 := by
  have h : AccountKept a (if i.lockNotice then { a with lockNoticeDue := false } else a) := by
    split
    · exact .of_same rfl rfl rfl rfl rfl rfl rfl
    · exact .refl a
  unfold Account.takeCarried
  dsimp only
  split
  · split
    · exact h.trans (.of_same rfl rfl rfl rfl rfl rfl rfl)
    · exact h
  · exact h

theorem kept_quarantine (a : Account) (slot : Nat) (first : Cause) (further : List Cause) :
    AccountKept a (a.quarantine slot first further).1 := by
  unfold Account.quarantine
  split
  · exact .refl a
  · exact AccountKept.trans (b := { a with cause := some first }) (.of_same rfl rfl rfl rfl rfl rfl rfl)
      (kept_enterHold _ _)

theorem kept_reconcile (a : Account) (p : Plan) (slot : Nat) (rep : KitReport) (carried : InstructionSet) :
    AccountKept a (a.reconcile p slot rep carried).1 := by
  have h := (kept_figures { acct := a } p rep carried).trans (kept_latchEvents _ slot rep.events)
  have h := h.trans (kept_takeCarried _ slot carried)
  unfold Account.reconcile
  dsimp only
  split
  · exact h.trans (kept_creditTest _)
  · exact h.trans (kept_quarantine _ _ _ _)

theorem kept_adopt (a : Account) (slot : Nat) (p1 : Page1) (e : KitEvents) : AccountKept a (a.adopt slot p1 e).1 := by
  have h : AccountKept a { a with q := p1.applied, allowance := p1.remaining } := .of_same rfl rfl rfl rfl rfl rfl rfl
  unfold Account.adopt
  dsimp only
  split
  · exact (h.trans (kept_latchEvents _ slot e)).trans (kept_quarantine _ _ _ _)
  · exact h.trans (.of_same rfl rfl rfl rfl rfl rfl rfl)

/-- The bind (R5): a LOADED account holds no grant. -/
theorem kept_bind (a : Account) : AccountKept a a.bind := by
  have hbound : AccountKept a { a with boundOnce := true } := .of_same rfl rfl rfl rfl rfl rfl rfl
  unfold Account.bind
  dsimp only
  split
  · next hs =>
    have hinactive : a.state ≠ .active := by rw [hs]; decide
    split <;> exact .of_inactive hinactive rfl rfl id rfl
  · exact hbound.trans (kept_creditTest _)
  · exact hbound.trans (kept_creditTest _)
  · exact hbound
  · exact hbound

/-- What the field side makes of an account (03, 08). -/
theorem kept_fieldChange (h : FieldChange a b) : AccountKept a b := by
  induction h with
  | refl a => exact .refl a
  | trans _ _ ih jh => exact ih.trans jh
  | expireRelay a slot => exact kept_expireRelay a slot
  | createGrant a p l m => exact kept_createGrant a p l m
  | countRelay a => exact .of_same rfl rfl rfl rfl rfl rfl rfl
  | keyed a g => exact kept_keyed a g
  | reconcile a p slot r i => exact kept_reconcile a p slot r i
  | adopt a slot p1 e => exact kept_adopt a slot p1 e
  | bind a => exact kept_bind a

end Sys2Proof.Machine
end

section
/-!
The commands as runs of elementary changes, continued: the account handlers, the field timer and the receptions; then every command
and the step.
-/

namespace Sys2Proof.Machine

variable {s t : State}

/-! ### Account handlers (R10 to R18, R30 to R43, R67) -/

/-- An account written by an operation that keeps its holder, and its figures sound in a sound state. -/
theorem reaches_accountWritten {slot : Nat} {a b : Account} (ha : s.account slot = some a) (hk : HolderKept a b)
    (hf : s.FiguresSound → b.FiguresSound) : Reaches s (s.setAccount slot (some b)) :=
  .single (.accountWritten slot a b ha hk.kit hk.plan hf hk.grants)

/-- An account written by an operation that keeps its figures sound by itself. -/
theorem reaches_accountKept {slot : Nat} {a b : Account} (ha : s.account slot = some a) (hk : AccountKept a b) :
    Reaches s (s.setAccount slot (some b)) :=
  reaches_accountWritten ha hk.holder fun hs => hk.figures (hs.1 slot a ha)

/-- The latch and the relay payload of an account written (R18, R67). -/
theorem reaches_latchAndRelay {slot : Nat} {a : Account} (ha : s.account slot = some a) (latch : KitEvents)
    (relay : Option Relay) : Reaches s (s.setAccount slot (some { a with latch := latch, relay := relay })) :=
  reaches_accountKept ha (.of_same rfl rfl rfl rfl rfl rfl rfl)

theorem reaches_applyState {slot : Nat} {a b : Account} {f : RxFrame} (hslot : slot = f.slot)
    (h : Reaches t (s.setAccount slot (some b))) (mode : ReportMode) (cmd : AccountCommand) (ns : List NoticeBody) :
    Reaches t (s.applyState mode f cmd a.state b ns) := by
  subst hslot
  exact (h.trans (reaches_handReceipt _ _ _ _ _)).trans (reaches_handAll _ _)

section Handlers

variable {admits : RxFrame → State → Bool}

/-- A SET_ACCOUNT_STATE subcommand that writes one account (R10 to R12). -/
theorem reaches_stateWrite {mode : ReportMode} {f : RxFrame}
    (h : t = s ∨ ∃ a b cmd ns, s.account f.slot = some a ∧ StateWrite a b ∧ t = s.applyState mode f cmd a.state b ns) :
    Reaches s t := by
  obtain rfl | ⟨a, b, cmd, ns, ha, hw, rfl⟩ := h
  · exact .refl
  · exact reaches_applyState rfl (reaches_accountKept ha (kept_stateWrite hw)) mode cmd ns

theorem handles_suspend : Handles admits actSuspend := fun _ _ _ _ _ _ h => reaches_stateWrite (actSuspend_ok h)

theorem handles_resume : Handles admits actResume := fun _ _ _ _ _ _ h => reaches_stateWrite (actResume_ok h)

theorem handles_clearQuarantine : Handles admits actClearQuarantine := fun _ _ _ _ _ _ h =>
  reaches_stateWrite (actClearQuarantine_ok h)

theorem handles_changePlan : Handles admits actChangePlan := fun u f e t _ _ h => by
  obtain rfl | ⟨a, n, ha, hn, ⟨-, rfl⟩ | ⟨hne, rfl⟩⟩ := actChangePlan_ok h
  · exact .refl
  · exact reaches_applyState rfl (reaches_accountKept ha (.refl a)) _ _ _
  · exact reaches_applyState rfl (.single (.planChanged f.slot a n ha hn hne)) _ _ _

theorem handles_readAccount : Handles admits actReadAccount := fun u f e t _ _ h => by
  obtain rfl | ⟨a, r, ha, rfl | rfl⟩ := actReadAccount_ok h
  · exact .refl
  · exact reaches_hand u r
  · exact (reaches_latchAndRelay ha {} a.relay).trans (reaches_hand _ r)

theorem handles_relayToKit : Handles admits actRelayToKit := fun u f e t _ _ h => by
  obtain rfl | ⟨a, r, b, ha, rfl⟩ := actRelayToKit_ok h
  · exact .refl
  · exact (reaches_latchAndRelay ha a.latch (some r)).trans (reaches_handReceipt _ _ _ _ _)

/-- The plan an account names has a credit ceiling in its range, present or not. -/
theorem planOf_ceiling (h : s.FiguresSound) (a : Account) : (s.planOf a).creditCeiling ≤ maxWh := by
  unfold State.planOf
  cases hp : s.plan a.plan with
  | none => exact Nat.zero_le _
  | some p => exact h.2 _ p hp

theorem handles_applyVoucher : Handles admits actApplyVoucher := fun u f e t _ _ h => by
  obtain rfl | ⟨a, v, w, b, ha, hw, rfl⟩ := actApplyVoucher_ok h
  · exact .refl
  refine (reaches_accountWritten ha (holderKept_commitVoucher a v w) fun hs => ?_).trans (reaches_handReceipt _ _ _ _ _)
  have hfigures := hs.1 f.slot a ha
  obtain ⟨hone, hceiling, harrears⟩ := convert_figures hw hfigures.1
  obtain ⟨hb, hr⟩ := commitVoucher_figures a v w
  rw [Account.FiguresSound, hb, hr]
  exact ⟨hone, hceiling.trans (planOf_ceiling hs a), harrears.trans hfigures.2.2⟩

theorem handles_adjustCredit : Handles admits actAdjustCredit := fun u f e t _ _ h => by
  obtain rfl | ⟨a, d, g, j, b, rs, ha, hj, rfl⟩ := actAdjustCredit_ok h
  · exact .refl
  refine ((reaches_accountWritten ha (holderKept_commitAdjustment a j) fun hs => ?_).trans
    (reaches_handReceipt _ _ _ _ _)).trans (reaches_handAll _ _)
  have hfigures := hs.1 f.slot a ha
  obtain ⟨hone, hceiling, harrears⟩ := adjust_figures hj hfigures.1
  obtain ⟨hb, hr⟩ := commitAdjustment_figures a j
  rw [Account.FiguresSound, hb, hr]
  exact ⟨hone, hceiling.elim (·.trans (planOf_ceiling hs a)) (·.trans hfigures.2.1), harrears.trans hfigures.2.2⟩

/-- A frame that passes the first four stages passes the TARGET stage of its handler (R77). -/
theorem targetCheck_of_screen_passed {u : State} {f : RxFrame} {e : Entry} (h : screen f u = .passed e) :
    targetCheck e.handler f u = none := by
  unfold screen at h
  split at h
  · cases h
  split at h
  · cases h
  split at h
  · cases h
  split at h
  · cases h
  split at h
  · cases h
  split at h
  · cases h
  next htarget =>
  cases h
  exact htarget

/-- The TARGET stage lets LOAD_ACCOUNT through to an EMPTY slot of the table alone (R81, R82). -/
theorem loadAccount_target {u : State} {f : RxFrame} {e : Entry} (hadmits : namesHandler .loadAccount f u = true)
    (hpass : screen f u = .passed e) : (1 ≤ f.slot ∧ f.slot ≤ 384) ∧ u.account f.slot = none := by
  have hentry := entry_of_screen_passed hpass
  simp only [namesHandler, hentry, beq_iff_eq] at hadmits
  have htarget : targetCheck e.handler f u = none := targetCheck_of_screen_passed hpass
  rw [hadmits] at htarget
  unfold targetCheck at htarget
  split at htarget
  · cases htarget
  next hfits =>
  refine ⟨by simp [slotFits, Handler.target] at hfits; omega, ?_⟩
  cases hu : u.account f.slot with
  | none => rfl
  | some a =>
    rw [hu] at htarget
    simp only [namesAccount, Handler.target, Bool.not_true, Bool.false_eq_true, if_false] at htarget
    split at htarget <;> cases htarget

theorem handles_loadAccount : Handles (namesHandler .loadAccount) actLoadAccount := fun u f e t ha he h => by
  obtain ⟨a, p, b, hkit, hfresh, hplan, hone, hceiling, harrears, hgrant, rfl⟩ := actLoadAccount_ok h
  obtain ⟨hrange, hempty⟩ := loadAccount_target ha he
  refine .trans (.single (.accountLoaded f.slot a p hrange hempty hkit hfresh hplan hone hceiling harrears hgrant)) ?_
  refine .trans ?_ (reaches_handReceipt _ _ _ _ _)
  refine .trans (.single (.field (linkEffect_mapLink _ f.slot fun l => { l with history := [], figures := none })
    (calendarLawful_mapLink f.slot _ rfl rfl))) ?_
  exact reaches_mapLinkVol _ f.slot _ fun v _ => by simp [LinkVolatile.CountersBounded, LinkVolatile.zeroCounters]

theorem handles_unloadAccount : Handles admits actUnloadAccount := fun u f e t _ _ h => by
  obtain rfl | ⟨a, rs, ha, rfl⟩ := actUnloadAccount_ok h
  · exact .refl
  have heffect := linkEffect_endLink u f.slot
  refine .trans (.single (.field heffect (calendarLawful_endLink f.slot))) (.trans ?_ (reaches_handAll _ _))
  rcases heffect.accounts f.slot with ⟨hnone, -⟩ | ⟨a', b, ha', hb, hchange⟩
  · rw [hnone] at ha; cases ha
  · rw [ha] at ha'
    cases ha'
    rw [← (kept_fieldChange hchange).plan]
    exact .single (.accountUnloaded f.slot b hb)

end Handlers

/-! ### The receptions (R111, R114 to R116) -/

theorem reaches_noReply (s : State) : Reaches s s.noReply := by
  unfold State.noReply
  split
  · exact .refl
  · exact reaches_exchangeOutcome s none

theorem reaches_endCall (s : State) (a : Arrival) (word : BitVec 16) : Reaches s (s.endCall a word) := by
  unfold State.endCall
  split
  · exact .refl
  · dsimp only
    split
    · exact reaches_bump s _
    · split
      · exact reaches_takeCall s _ _
      · exact reaches_bump s _

theorem reaches_endFrame (s : State) (blocks : List Block) : Reaches s (s.endFrame blocks) := by
  unfold State.endFrame
  split
  · exact .refl
  next r _ =>
  have hshort : Reaches s (if blocks.length < r.blockCount then s.bump .shortFrames else s) := by
    split
    · exact reaches_bump s _
    · exact .refl
  dsimp only
  refine hshort.trans ?_
  generalize (if blocks.length < r.blockCount then s.bump .shortFrames else s) = u
  have hended (made : Bool) : Reaches u (u.setFp { u.fp with reception := none, recordMade := made }) :=
    reaches_setFp_same _ _ rfl rfl rfl rfl rfl
  split
  · exact (hended u.fp.recordMade).trans (reaches_endCall _ _ _)
  · split
    · exact (hended true).trans (reaches_exchangeOutcome _ _)
    · exact hended true
  all_goals exact hended u.fp.recordMade

theorem reaches_takeHeader (s : State) (word : BitVec 16) (block : Block) : Reaches s (s.takeHeader word block) := by
  unfold State.takeHeader
  split
  · unfold State.countHeaderFail
    split
    · exact reaches_bump s _
    · exact reaches_bump s _
    all_goals exact .refl
  · exact reaches_bump s _
  · exact reaches_setFp_same _ _ rfl rfl rfl rfl rfl

theorem reaches_settleLateHeader (s : State) : Reaches s s.settleLateHeader := by
  unfold State.settleLateHeader
  split
  · have hclosed : Reaches s (s.setFp { s.fp with window := .closed }) := reaches_setFp_same _ _ rfl rfl rfl rfl rfl
    dsimp only
    split
    · exact hclosed
    · exact hclosed.trans (reaches_noReply _)
  · exact .refl

/-! ### Cycles and slots (R102, R103, R107 to R110) -/

theorem reaches_endSlot (s : State) (cut : List Block) : Reaches s (s.endSlot cut) := by
  unfold State.endSlot
  refine .trans ?_ (reaches_setFp_same _ _ rfl rfl rfl rfl rfl)
  split
  · exact reaches_endFrame s cut
  · split
    · exact .refl
    · exact reaches_noReply s

/-- The shadow becomes the active parameters (R103, R106). -/
theorem reaches_adoptShadow {p : CycleParams} (hp : s.fp.shadow = some p) :
    Reaches s { s with ret := { s.ret with active := p }, fp := { s.fp with shadow := none } } := by
  refine .single (.control rfl (fun h => ?_) fun h => h)
  obtain ⟨-, hshadow, hrest⟩ := h
  exact ⟨hshadow p hp, by simp, hrest⟩

/-- The configured identity comes into effect (R179). -/
theorem reaches_takeIdentity (s : State) :
    Reaches s (s.setFp { s.fp with idInEffect := s.ret.nodeId, rankInEffect := s.ret.rank }) := by
  refine .single (.control rfl (fun h => ?_) fun h => h)
  obtain ⟨hactive, hshadow, hconfig, hclock, hid, hrank, -, -⟩ := h
  exact ⟨hactive, hshadow, hconfig, hclock, hid, hrank, hid, hrank⟩

theorem reaches_beginCycle (s : State) : Reaches s s.beginCycle := by
  unfold State.beginCycle
  refine .trans (b := s.setFp { s.fp with
    cycle := (s.fp.cycle + 1) % 65536
    cycleDay := if s.ret.clock.isSet then s.ret.clock.day else 0
    status := .pending
    callsOpen := false
    quieted := false
    place := .cycleBegun }) ?_ ?_
  · exact reaches_setFp s _ rfl rfl rfl fun h => ⟨by dsimp only; omega, h.2⟩
  · generalize s.setFp _ = u
    dsimp only
    refine .trans ?_ (reaches_evalMode _)
    refine .trans ?_ (reaches_takeIdentity _)
    split
    · next p hp => exact reaches_adoptShadow hp
    · exact .refl

theorem reaches_beginSlot (s : State) (p : Place) : Reaches s (s.beginSlot p) := by
  have hslot : Reaches s (s.setFp { s.fp with place := p }).evalMode.noteQuiet :=
    ((reaches_setFp_same s { s.fp with place := p } rfl rfl rfl rfl rfl).trans (reaches_evalMode _)).trans
      (reaches_noteQuiet _)
  unfold State.beginSlot
  refine hslot.trans ?_
  generalize (s.setFp { s.fp with place := p }).evalMode.noteQuiet = u
  dsimp only
  split
  · split <;> exact reaches_setFp_same _ _ rfl rfl rfl rfl rfl
  · exact reaches_useDataSlot _ _
  all_goals exact .refl

theorem length_appendYield (h : List YieldOutcome) (o : YieldOutcome) : (appendYield h o).length ≤ 16 := by
  simp only [appendYield, List.length_drop, List.length_append, List.length_singleton]
  omega

theorem reaches_recordYield (s : State) (o : YieldOutcome) : Reaches s (s.recordYield o) := by
  unfold State.recordYield
  have hhistory : Reaches s (s.setFp { s.fp with history := appendYield s.fp.history o }) :=
    reaches_setFp _ _ rfl rfl rfl fun h => ⟨h.1, length_appendYield _ _⟩
  dsimp only
  split
  · exact hhistory.trans (reaches_raise _ _)
  · exact hhistory

theorem reaches_noticeKeying (s : State) : Reaches s s.noticeKeying := by
  unfold State.noticeKeying
  split
  · exact reaches_keyingNotice s _ _ _
  · exact .refl

/-! ### Every command, and the step -/

/-- The answer of a command whose meaning has one next state. -/
theorem reaches_next {u : State} (hr : Reaches s u) (h : (.next u : Host.Outcome State Fault Refusal) = .next t) :
    Reaches s t := by
  cases h
  exact hr

/-- A command that is carried out only where its event is due. -/
theorem reaches_ite {p : Prop} [Decidable p] (h : p → Reaches s t) : Reaches s (if p then t else s) := by
  split
  · next hp => exact h hp
  · exact .refl

/-- A command that takes a frame by what the entry of its class or its payload names. -/
theorem reaches_taken {admits : RxFrame → State → Bool} {action : HandlerAction} (hh : Handles admits action)
    (hadmits : ∀ f s rest, admits f (s.setRxQueue rest) = admits f s)
    (h : (.next (s.takeFrame admits action) : Host.Outcome State Fault Refusal) = .next t) : Reaches s t :=
  reaches_next (reaches_takeFrame hadmits hh s) h

theorem reaches_gapExpiry (h : execGapExpiry s = .next t) : Reaches s t := by
  unfold execGapExpiry at h
  split at h
  · exact reaches_next (reaches_ite fun _ => (reaches_bump s _).trans (reaches_unreserved _ (by simp))) h
  all_goals exact reaches_next .refl h

theorem reaches_slotStart {cut : List Block} (h : execSlotStart cut s = .next t) : Reaches s t := by
  unfold execSlotStart at h
  split at h
  · exact reaches_next (reaches_ite fun _ => (reaches_endSlot s cut).trans (reaches_beginSlot _ _)) h
  · exact reaches_next .refl h

theorem reaches_gapStart {cut : List Block} (h : execGapStart cut s = .next t) : Reaches s t := by
  refine reaches_next (reaches_ite fun _ => ?_) h
  exact (reaches_endSlot s cut).trans (reaches_setFp_same (s.endSlot cut) { (s.endSlot cut).fp with place := .gap }
    rfl rfl rfl rfl rfl)

theorem reaches_cycleStart {cut : List Block} (h : execCycleStart cut s = .next t) : Reaches s t :=
  reaches_next (reaches_ite fun _ =>
    ((reaches_endSlot s cut).trans (reaches_beginCycle _)).trans (reaches_linkCycleStart _)) h

theorem reaches_beaconWon (h : execBeaconWon s = .next t) : Reaches s t := by
  unfold execBeaconWon at h
  split at h
  · refine reaches_next (.trans ?_ (reaches_recordYield _ _)) h
    exact reaches_setFp_same _ _ rfl rfl rfl rfl rfl
  all_goals exact reaches_next .refl h

theorem reaches_beaconYield {bit : Nat} (h : execBeaconYield bit s = .next t) : Reaches s t := by
  unfold execBeaconYield at h
  split at h
  · split at h
    · refine reaches_next (.trans (.trans ?_ (reaches_bump _ .yieldedCycles)) (reaches_recordYield _ _)) h
      exact reaches_setFp_same _ _ rfl rfl rfl rfl rfl
    · exact reaches_next .refl h
  all_goals exact reaches_next .refl h

theorem reaches_keyingBegun (h : execKeyingBegun s = .next t) : Reaches s t := by
  unfold execKeyingBegun at h
  split at h
  · refine reaches_next (.trans ?_ (reaches_noticeKeying _)) h
    exact reaches_setFp_same _ _ rfl rfl rfl rfl rfl
  all_goals exact reaches_next .refl h

theorem reaches_downlinkKeyed (h : execDownlinkKeyed s = .next t) : Reaches s t := by
  unfold execDownlinkKeyed at h
  split at h
  · split at h
    all_goals
      refine reaches_next ?_ h
      exact reaches_setFp_same _ _ rfl rfl rfl rfl rfl
  all_goals exact reaches_next .refl h

theorem reaches_replyWindowClose {arriving : Bool} (h : execReplyWindowClose arriving s = .next t) : Reaches s t := by
  have hwindow (w : ReplyWindow) : Reaches s (s.setFp { s.fp with window := w }) := reaches_setFp_same _ _ rfl rfl rfl rfl rfl
  unfold execReplyWindowClose at h
  split at h
  · split at h
    · exact reaches_next (hwindow .closed) h
    · split at h
      · exact reaches_next (hwindow .lateHeader) h
      · exact reaches_next ((hwindow .closed).trans (reaches_noReply _)) h
  all_goals exact reaches_next .refl h

theorem reaches_fieldHeaderBlock {word : BitVec 16} {block : HeaderBlock} (h : execFieldHeaderBlock word block s = .next t) :
    Reaches s t :=
  reaches_next (reaches_ite fun _ => (reaches_takeHeader s word _).trans (reaches_settleLateHeader _)) h

theorem reaches_transmitTake {ready : Bool} (h : execTransmitTake ready s = .next t) : Reaches s t := by
  unfold execTransmitTake at h
  split at h
  · exact reaches_next (reaches_ite fun _ => reaches_takeRecord s) h
  · exact reaches_next .refl h

/-- The clock keeps its ranges as it counts (R181). -/
theorem clockValid_tick {c : Clock} (h : c.Valid) : c.tick.Valid := by
  obtain ⟨hday, hsecond, hunset⟩ := h
  unfold Clock.tick
  split
  · next hset =>
    split
    · next hlt => exact ⟨hday, hlt, fun hu => by rw [show _ = c.isSet from rfl, hset] at hu; cases hu⟩
    · exact ⟨Nat.min_le_right _ _, (by decide : 0 < secondsOfDay), fun hu => by rw [show _ = c.isSet from rfl, hset] at hu; cases hu⟩
  · exact ⟨hday, hsecond, hunset⟩

theorem reaches_clockSecond (s : State) : Reaches s { s with ret := { s.ret with clock := s.ret.clock.tick } } := by
  refine .single (.control rfl (fun h => ?_) fun h => h)
  obtain ⟨hactive, hshadow, hconfig, hclock, hrest⟩ := h
  exact ⟨hactive, hshadow, hconfig, clockValid_tick hclock, hrest⟩

theorem reaches_powerFail (s : State) : Reaches s { s.clearVolatile with powered := false } :=
  .trans (.single .cleared) (.single (.control rfl (fun h => h) fun h => h))

/-- Every command but the loss of the retention supply is a run of elementary changes. -/
theorem reaches_exec {c : Instr} (hc : c ≠ .retentionSupplyLoss) (h : exec c s = .next t) : Reaches s t := by
  cases c with
  | retentionSupplyLoss => exact absurd rfl hc
  | frameBegin b | contentByte b | oversizeByte b => exact reaches_next (reaches_receiveByte s b) h
  | frameClose | delimiter => exact reaches_next (reaches_receiveByte s _) h
  | gapExpiry => exact reaches_gapExpiry h
  | setIdentity => exact reaches_taken handles_setIdentity (fun _ _ _ => rfl) h
  | setConfig => exact reaches_taken handles_setConfig (fun _ _ _ => rfl) h
  | resetNode => exact reaches_taken handles_resetNode (fun _ _ _ => rfl) h
  | setCycle => exact reaches_taken handles_setCycle (fun _ _ _ => rfl) h
  | setMode => exact reaches_taken handles_setMode (fun _ _ _ => rfl) h
  | fieldReset => exact reaches_taken handles_fieldReset (fun _ _ _ => rfl) h
  | clearEscalation => exact reaches_taken handles_clearEscalation (fun _ _ _ => rfl) h
  | setAlarmMask => exact reaches_taken handles_setAlarmMask (fun _ _ _ => rfl) h
  | readStatus => exact reaches_taken handles_readStatus (fun _ _ _ => rfl) h
  | loadDisposition => exact reaches_taken handles_loadDisposition (fun _ _ _ => rfl) h
  | setTime => exact reaches_taken handles_setTime (fun _ _ _ => rfl) h
  | readCounters => exact reaches_taken handles_readCounters (fun _ _ _ => rfl) h
  | loadPlan => exact reaches_taken handles_loadPlan (fun _ _ _ => rfl) h
  | unloadPlan => exact reaches_taken handles_unloadPlan (fun _ _ _ => rfl) h
  | readPlan => exact reaches_taken handles_readPlan (fun _ _ _ => rfl) h
  | loadAccount => exact reaches_taken handles_loadAccount (fun _ _ _ => rfl) h
  | unloadAccount => exact reaches_taken handles_unloadAccount (fun _ _ _ => rfl) h
  | suspend => exact reaches_taken handles_suspend (fun _ _ _ => rfl) h
  | resume => exact reaches_taken handles_resume (fun _ _ _ => rfl) h
  | clearQuarantine => exact reaches_taken handles_clearQuarantine (fun _ _ _ => rfl) h
  | changePlan => exact reaches_taken handles_changePlan (fun _ _ _ => rfl) h
  | adjustCredit => exact reaches_taken handles_adjustCredit (fun _ _ _ => rfl) h
  | applyVoucher => exact reaches_taken handles_applyVoucher (fun _ _ _ => rfl) h
  | readAccount => exact reaches_taken handles_readAccount (fun _ _ _ => rfl) h
  | relayToKit => exact reaches_taken handles_relayToKit (fun _ _ _ => rfl) h
  | probeKit => exact reaches_taken handles_probeKit (fun _ _ _ => rfl) h
  | discard => exact reaches_taken handles_discard (fun _ _ _ => rfl) h
  | frameTaken => exact reaches_taken handles_unknown (fun _ _ _ => rfl) h
  | cycleStart cut => exact reaches_cycleStart h
  | slotStart cut => exact reaches_slotStart h
  | gapStart cut => exact reaches_gapStart h
  | beaconWon => exact reaches_beaconWon h
  | beaconYield bit => exact reaches_beaconYield h
  | keyingBegun => exact reaches_keyingBegun h
  | downlinkKeyed => exact reaches_downlinkKeyed h
  | replyWindowClose arriving => exact reaches_replyWindowClose h
  | fieldHeaderBlock word block => exact reaches_fieldHeaderBlock h
  | carrierLossEnd blocks | fieldFrameEnd blocks => exact reaches_next (reaches_endFrame s blocks) h
  | clockSecond => exact reaches_next (reaches_clockSecond s) h
  | powerUp => exact reaches_next (reaches_start s _ _ _) h
  | powerFail => exact reaches_next (reaches_powerFail s) h
  | transmitTake ready => exact reaches_transmitTake h
  | reportFrameSent => exact reaches_next (reaches_setTransmitter s _) h

/-- A step whose front command is not the loss of the retention supply is a run of elementary changes. -/
theorem reaches_step (hloss : s.pending.head? ≠ some .retentionSupplyLoss) (h : step s = .next t) : Reaches s t := by
  unfold step at h
  split at h
  · exact reaches_next .refl h
  · next c rest hp =>
    rw [hp, List.head?_cons] at hloss
    exact (reaches_withPending s rest).trans (reaches_exec (fun hc => hloss (congrArg some hc)) h)

/-- A step that runs the loss of the retention supply changes the retention domain, its mark and the model's own registers alone
(R183, log entry 7). -/
theorem step_retentionSupplyLoss (hloss : s.pending.head? = some .retentionSupplyLoss) (h : step s = .next t) :
    t.tp = s.tp ∧ t.ru = s.ru ∧ t.lc = s.lc ∧ t.fp = s.fp ∧ t.counters = s.counters := by
  unfold step at h
  split at h
  · next hp => rw [hp] at hloss; cases hloss
  · next c rest hp =>
    rw [hp, List.head?_cons] at hloss
    cases hloss
    cases h
    exact ⟨rfl, rfl, rfl, rfl, rfl⟩

end Sys2Proof.Machine
end

section
/-!
The invariants (Safety.lean): each is kept by every elementary change, so by every step.
-/

namespace Sys2Proof.Machine

variable {s t : State}

/-! ### The volatile state: reports, trunk, callers, counters (05, 07, 09, 10) -/

/-- What the elementary changes keep, and what the loss of the retention supply leaves alone, every step keeps. -/
theorem step_keeps_volatile {P : State → Prop} (hP : ∀ s t, Change s t → P s → P t)
    (hloss : ∀ s t : State, t.tp = s.tp → t.ru = s.ru → t.lc = s.lc → t.fp = s.fp → t.counters = s.counters → P s → P t)
    (h : step s = .next t) (hs : P s) : P t := by
  by_cases hl : s.pending.head? = some .retentionSupplyLoss
  · obtain ⟨htp, hru, hlc, hfp, hcounters⟩ := step_retentionSupplyLoss hl h
    exact hloss s t htp hru hlc hfp hcounters hs
  · exact (reaches_step hl h).keeps hP hs

/-- What the elementary changes keep, every step keeps that does not lose the retention supply. -/
theorem step_keeps_retained {P : State → Prop} (hP : ∀ s t, Change s t → P s → P t)
    (hloss : s.pending.head? ≠ some .retentionSupplyLoss) (h : step s = .next t) (hs : P s) : P t :=
  (reaches_step hloss h).keeps hP hs

theorem SameButControl.ru (h : SameButControl s t) : t.ru = s.ru := by rw [h]

theorem SameButControl.tp (h : SameButControl s t) : t.tp = s.tp := by rw [h]

theorem SameButControl.lc (h : SameButControl s t) : t.lc = s.lc := by rw [h]

theorem SameButControl.counters (h : SameButControl s t) : t.counters = s.counters := by rw [h]

theorem SameButControl.accounts (h : SameButControl s t) : t.ret.accounts = s.ret.accounts := by rw [h]

theorem SameButControl.plans (h : SameButControl s t) : t.ret.plans = s.ret.plans := by rw [h]

theorem SameButControl.entries (h : SameButControl s t) : t.ret.entries = s.ret.entries := by rw [h]

theorem SameButControl.limit (h : SameButControl s t) : t.ret.limit = s.ret.limit := by rw [h]

theorem SameButControl.calendar (h : SameButControl s t) : t.ret.calendar = s.ret.calendar := by rw [h]

theorem SameButControl.links (h : SameButControl s t) : t.ret.links = s.ret.links := by rw [h]

theorem SameButReports.tp (h : SameButReports s t) : t.tp = s.tp := by rw [h]

theorem SameButReports.lc (h : SameButReports s t) : t.lc = s.lc := by rw [h]

theorem SameButReports.fp (h : SameButReports s t) : t.fp = s.fp := by rw [h]

theorem SameButReports.ret (h : SameButReports s t) : t.ret = s.ret := by rw [h]

theorem SameButReports.counters (h : SameButReports s t) : t.counters = s.counters := by rw [h]

theorem reportsBounded_change (h : Change s t) (hs : s.ReportsBounded) : t.ReportsBounded := by
  cases h with
  | records _ bounds => exact bounds hs
  | field effect _ => exact effect.reports hs
  | control same => exact reportsBounded_congr same.ru hs
  | cleared => simp [State.ReportsBounded, State.clearVolatile]
  | _ => exact hs

/-- Settles O3: the Report Unit's operations keep the bounds, and nothing else writes its registers but to clear them. -/
theorem stepKeepsReportBounds : Obligations.StepKeepsReportBounds := fun _ _ hs h =>
  step_keeps_volatile (fun _ _ => reportsBounded_change) (fun _ _ _ hru _ _ _ => reportsBounded_congr hru) h hs

theorem trunkBounded_congr (h : t.tp = s.tp) (hs : s.TrunkBounded) : t.TrunkBounded := by
  unfold State.TrunkBounded at *
  rw [h]
  exact hs

theorem trunkBounded_change (h : Change s t) (hs : s.TrunkBounded) : t.TrunkBounded := by
  cases h with
  | records same _ => exact trunkBounded_congr same.tp hs
  | trunk _ bounds => exact bounds hs
  | field effect _ => exact trunkBounded_congr effect.tp hs
  | control same => exact trunkBounded_congr same.tp hs
  | cleared => exact ⟨Nat.zero_le _, trivial, by simp [State.clearVolatile]⟩
  | _ => exact hs

/-- Settles O4: a byte on the trunk keeps the bounds of reception and queue, and taking a frame only frees an entry. -/
theorem stepKeepsTrunkBounds : Obligations.StepKeepsTrunkBounds := fun _ _ hs h =>
  step_keeps_volatile (fun _ _ => trunkBounded_change) (fun _ _ htp _ _ _ _ => trunkBounded_congr htp) h hs

theorem callersOrdered_change (h : Change s t) (hs : s.CallersOrdered) : t.CallersOrdered := by
  have hlc {u : State} (h : u.lc = s.lc) : u.CallersOrdered := callersOrdered_congr (by rw [h]) (by rw [h]) hs
  cases h with
  | records same _ => exact hlc same.lc
  | field effect _ => exact effect.callers hs
  | control same => exact hlc same.lc
  | cleared => simp [State.CallersOrdered, State.clearVolatile]
  | _ => exact hs

/-- Settles O5: the Link Controller's operations keep the queue's order, and nothing else writes it but to empty it. -/
theorem stepKeepsCallerOrder : Obligations.StepKeepsCallerOrder := fun _ _ hs h =>
  step_keeps_volatile (fun _ _ => callersOrdered_change)
    (fun _ _ _ _ hlc _ _ hs => callersOrdered_congr (by rw [hlc]) (by rw [hlc]) hs) h hs

/-- The counters of link records at their start values are in their range. -/
theorem linkVol_clearVolatile (s : State) (k : Nat) : s.clearVolatile.linkVol k = {} := by
  simp only [State.clearVolatile, State.linkVol, Vector.getElem?_replicate]
  split <;> rfl

theorem countersBounded_clearVolatile (s : State) : s.clearVolatile.CountersBounded := by
  refine ⟨fun n => by cases n <;> exact Nat.zero_le _, fun k => ?_⟩
  rw [linkVol_clearVolatile]
  simp [LinkVolatile.CountersBounded]

theorem countersBounded_change (h : Change s t) (hs : s.CountersBounded) : t.CountersBounded := by
  cases h with
  | records same _ => exact countersBounded_congr same.counters (by rw [same.lc]) hs
  | field effect _ => exact effect.counters hs
  | control same => exact countersBounded_congr same.counters (by rw [same.lc]) hs
  | cleared => exact countersBounded_clearVolatile s
  | _ => exact hs

theorem cycleBounded_congr (hcycle : t.fp.cycle = s.fp.cycle) (hhistory : t.fp.history = s.fp.history)
    (hs : s.CycleBounded) : t.CycleBounded := by
  unfold State.CycleBounded
  rw [hcycle, hhistory]
  exact hs

theorem cycleBounded_change (h : Change s t) (hs : s.CycleBounded) : t.CycleBounded := by
  cases h with
  | records same _ => exact cycleBounded_congr (by rw [same.fp]) (by rw [same.fp]) hs
  | field effect _ => exact cycleBounded_congr (by rw [effect.fp]) (by rw [effect.fp]) hs
  | control _ _ cycle => exact cycle hs
  | cleared => exact ⟨Nat.le_refl _, Nat.zero_le _⟩
  | _ => exact hs

/-- Settles O6: every counter saturates, the cycle number wraps and the yield history is cut to 16. -/
theorem stepKeepsCounterRanges : Obligations.StepKeepsCounterRanges := fun _ _ hcounters hcycle h =>
  ⟨step_keeps_volatile (fun _ _ => countersBounded_change)
      (fun _ _ _ _ hlc _ hc => countersBounded_congr hc (by rw [hlc])) h hcounters,
    step_keeps_volatile (fun _ _ => cycleBounded_change)
      (fun _ _ _ _ _ hfp _ => cycleBounded_congr (by rw [hfp]) (by rw [hfp])) h hcycle⟩

/-! ### The control registers and the calendar (06, 07, 11) -/

theorem controlInRange_congr (hret : t.ret = s.ret) (hfp : t.fp = { s.fp with downlink := t.fp.downlink })
    (hs : s.ControlInRange) : t.ControlInRange := by
  unfold State.ControlInRange
  rw [hret, hfp]
  exact hs

theorem LinkEffect.controlInRange (h : LinkEffect s t) (hs : s.ControlInRange) : t.ControlInRange := by
  unfold State.ControlInRange
  rw [h.ret, h.fp]
  exact hs

/-- The start values of the volatile registers are in their ranges. -/
theorem controlInRange_clearVolatile (hs : s.ControlInRange) : s.clearVolatile.ControlInRange := by
  obtain ⟨hactive, -, hconfig, hclock, hid, hrank, -, -⟩ := hs
  refine ⟨hactive, ?_, hconfig, hclock, hid, hrank, ?_, ?_⟩ <;> simp [State.clearVolatile]

/-- The cold values are in their ranges. -/
theorem controlInRange_cold (hs : s.ControlInRange) : { s with ret := Retained.cold }.ControlInRange := by
  obtain ⟨-, hshadow, -, -, -, -, hinEffect⟩ := hs
  exact ⟨(by decide : Retained.cold.active.inRange = true), hshadow, (by decide : Retained.cold.config.inRange = true),
    ⟨Nat.zero_le _, (by decide : 0 < secondsOfDay), fun _ => ⟨rfl, rfl⟩⟩, (by decide : Retained.cold.nodeId < 65535), (by decide : Retained.cold.rank ≤ 255),
    hinEffect⟩

theorem controlInRange_change (h : Change s t) (hs : s.ControlInRange) : t.ControlInRange := by
  cases h with
  | records same _ => exact controlInRange_congr same.ret (by rw [same.fp]) hs
  | field effect _ => exact effect.controlInRange hs
  | control _ ranges _ => exact ranges hs
  | cleared => exact controlInRange_clearVolatile hs
  | cold => exact controlInRange_cold hs
  | _ => exact hs

/-- Settles O12: the subcommands check the ranges of what they write, and a start writes start values or configured ones. -/
theorem stepKeepsControlRanges : Obligations.StepKeepsControlRanges := fun _ _ hs hloss h =>
  step_keeps_retained (fun _ _ => controlInRange_change) hloss h hs

theorem link_cold (k : Nat) : State.link { s with ret := Retained.cold } k = {} := by
  simp only [State.link, Retained.cold, Vector.getElem?_replicate]
  split <;> rfl

/-- The empty calendar and the ABSENT links of a cold start agree. -/
theorem calendarLawful_cold (hs : ∀ c ∈ s.lc.callers, 1 ≤ c.slot ∧ c.slot ≤ 384) :
    { s with ret := Retained.cold }.CalendarLawful := by
  refine ⟨fun k => ?_, fun k p hp => ?_, fun i k hi => ?_, hs⟩
  · rw [link_cold]
    rfl
  · rw [link_cold] at hp
    cases hp
  · simp [Retained.cold, Vector.getElem?_replicate] at hi

theorem calendarLawful_change (h : Change s t) (hs : s.CalendarLawful) : t.CalendarLawful := by
  cases h with
  | records same _ => exact calendarLawful_congr (by rw [same.ret]) (by rw [same.ret]) (by rw [same.lc]) hs
  | field _ calendar => exact calendar hs
  | control same => exact calendarLawful_congr same.calendar same.links (by rw [same.lc]) hs
  | cleared => exact calendarLawful_callers (s := s) rfl rfl (by simp [State.clearVolatile]) hs
  | cold => exact calendarLawful_cold hs.2.2.2
  | _ => exact calendarLawful_congr (s := s) rfl rfl rfl hs

/-- Settles O13: each operation of the Link Controller keeps the law, and a cold start empties calendar and links alike. -/
theorem stepKeepsCalendarLaw : Obligations.StepKeepsCalendarLaw := fun _ _ hs hloss h =>
  step_keeps_retained (fun _ _ => calendarLawful_change) hloss h hs

/-! ### The Disposition Table (04) -/

theorem dispositionSound_congr (hentries : t.ret.entries = s.ret.entries) (hlimit : t.ret.limit = s.ret.limit)
    (hs : s.DispositionSound) : t.DispositionSound := by
  unfold State.DispositionSound
  simp only [entry_congr hentries, hlimit]
  exact hs

/-- The four fixed entries of the default image (R74). -/
theorem defaultEntries_fixed {c : Nat} (hc : c < 4) : ∃ e, (defaultEntries[c]?).join = some e ∧ e.fixed = true := by
  have : c = 0 ∨ c = 1 ∨ c = 2 ∨ c = 3 := by omega
  rcases this with rfl | rfl | rfl | rfl <;> exact ⟨_, rfl, rfl⟩

/-- LOAD_DISPOSITION writes no fixed entry, so a class from 4 on (R75 check 2). -/
theorem dispositionSound_write {cls : Nat} {entry : Option Entry} {limit : Option Nat} (hs : s.DispositionSound)
    (hfree : ∀ e, s.entry cls = some e → e.fixed = false) (hrange : ∀ l, limit = some l → 4 ≤ l ∧ l ≤ 64)
    (hsound : ∀ e, entry = some e → e.ceiling ≤ 3 ∧ e.fixed = false ∧ e.weakensControl = false) :
    (s.writeDisposition cls entry limit).DispositionSound := by
  obtain ⟨himage, hlow, hhigh, hentries⟩ := hs
  have hcls : 4 ≤ cls := by
    by_contra hlt
    obtain ⟨e, he, hfixed⟩ := defaultEntries_fixed (Nat.not_le.1 hlt)
    have := hfree e ((himage cls (Nat.not_le.1 hlt)).trans he)
    rw [hfixed] at this
    cases this
  have hentry (c : Nat) : (s.writeDisposition cls entry limit).entry c = if c = cls ∧ cls < 64 then entry else s.entry c :=
    entry_setEntry s cls c entry
  have hlimit : (s.writeDisposition cls entry limit).ret.limit = limit.getD s.ret.limit := rfl
  refine ⟨fun c hc => ?_, ?_, ?_, fun c e he => ?_⟩
  · rw [hentry, if_neg (by omega)]
    exact himage c hc
  · rw [hlimit]
    cases limit with
    | none => exact hlow
    | some l => exact (hrange l rfl).1
  · rw [hlimit]
    cases limit with
    | none => exact hhigh
    | some l => exact (hrange l rfl).2
  · rw [hentry] at he
    split at he
    · obtain ⟨hceiling, hfixed, hweak⟩ := hsound e he
      refine ⟨hceiling, fun _ => hfixed, fun hhandler => ?_⟩
      by_contra hne
      rcases hhandler with hh | hh <;> simp [Entry.weakensControl, hh, hne] at hweak
    · exact hentries c e he

/-- The default image meets the table's rules. -/
theorem dispositionSound_cold : { s with ret := Retained.cold }.DispositionSound := by
  refine ⟨fun _ _ => rfl, (by decide : 4 ≤ Retained.cold.limit), (by decide : Retained.cold.limit ≤ 64), fun c e he => ?_⟩
  have hc : c < 64 := by
    by_contra hlt
    simp [State.entry, Vector.getElem?_eq_none (Nat.not_lt.1 hlt)] at he
  have himage : ∀ c < 64, ∀ e ∈ (defaultEntries[c]?).join, e.ceiling ≤ 3 ∧ (4 ≤ c → e.fixed = false) ∧
      (e.handler = .nodeControl ∨ e.handler = .loadDisposition → e.ceiling = 0) := by decide
  exact himage c hc e he

theorem dispositionSound_change (h : Change s t) (hs : s.DispositionSound) : t.DispositionSound := by
  cases h with
  | records same _ => exact dispositionSound_congr (by rw [same.ret]) (by rw [same.ret]) hs
  | field effect _ => exact dispositionSound_congr (by rw [effect.ret]) (by rw [effect.ret]) hs
  | control same => exact dispositionSound_congr same.entries same.limit hs
  | cold => exact dispositionSound_cold
  | disposition cls entry limit free range sound => exact dispositionSound_write hs free range sound
  | _ => exact hs

/-- Settles O7: the checks of LOAD_DISPOSITION guard the fixed entries, the control ceilings and the limit. -/
theorem stepKeepsDispositionTable : Obligations.StepKeepsDispositionTable := fun _ _ hs hloss h =>
  step_keeps_retained (fun _ _ => dispositionSound_change) hloss h hs

/-! ### The accounts (01, 03): figures, kit ids and grants -/

theorem LinkEffect.plan (h : LinkEffect s t) (n : Nat) : t.plan n = s.plan n := plan_congr (by rw [h.ret]) n

/-- What the field side leaves in a slot it has made of the account found there. -/
theorem LinkEffect.account (h : LinkEffect s t) {k : Nat} {b : Account} (hb : t.account k = some b) :
    ∃ a, s.account k = some a ∧ AccountKept a b := by
  rcases h.accounts k with ⟨-, hnone⟩ | ⟨a, b', ha, hb', hchange⟩
  · rw [hnone] at hb
    cases hb
  · cases hb'.symm.trans hb
    exact ⟨a, ha, kept_fieldChange hchange⟩

theorem account_setAccount_some {k j : Nat} {b x : Account} (h : (s.setAccount k (some b)).account j = some x) :
    (j = k ∧ x = b) ∨ s.account j = some x := by
  rw [account_setAccount] at h
  split at h
  · next hj => exact .inl ⟨hj.1, (Option.some.inj h).symm⟩
  · exact .inr h

theorem account_setAccount_none {k j : Nat} {x : Account} (h : (s.setAccount k none).account j = some x) :
    s.account j = some x := by
  rw [account_setAccount] at h
  split at h
  · cases h
  · exact h

theorem account_cold (k : Nat) : State.account { s with ret := Retained.cold } k = none := by
  simp [State.account, Retained.cold, Vector.getElem?_replicate, Option.join_eq_none_iff]
  omega

theorem plan_cold (n : Nat) : State.plan { s with ret := Retained.cold } n = none := by
  simp [State.plan, Retained.cold, Vector.getElem?_replicate, Option.join_eq_none_iff]
  omega

/-- A plan after its use count has moved has a plan before with the same ceiling. -/
theorem plan_mapUseCount_ceiling {n m : Nat} {f : Nat → Nat} {p : Plan} (h : (s.mapUseCount n f).plan m = some p) :
    ∃ q, s.plan m = some q ∧ p.creditCeiling = q.creditCeiling := by
  rw [plan_mapUseCount] at h
  split at h
  · obtain ⟨q, hq, rfl⟩ := Option.map_eq_some_iff.1 h
    exact ⟨q, hq, rfl⟩
  · exact ⟨p, h, rfl⟩

/-- An account after a change was there before, or is the fresh record of LOAD_ACCOUNT. -/
inductive AccountAfter (s t : State) (k : Nat) (x : Account) : Prop where
  | kept (a : Account) (before : s.account k = some a) (kit : x.kitId = a.kitId)
      (figures : s.FiguresSound → x.FiguresSound) (grants : a.GrantsExclusive → x.GrantsExclusive)
  | loaded (kit : x.kitId ≠ 0) (fresh : ∀ j y, s.account j = some y → y.kitId ≠ x.kitId)
      (others : ∀ j, j ≠ k → t.account j = s.account j)
      (figures : s.FiguresSound → x.FiguresSound) (grant : x.pendingGrant = none)

theorem accountAfter_change {k : Nat} {x : Account} (h : Change s t) (hx : t.account k = some x) : AccountAfter s t k x := by
  have hold {u : State} (hu : s.account k = some x) : AccountAfter s u k x :=
    .kept x hu rfl (fun hs => hs.1 k x hu) id
  have hsame {u : State} (hu : u.ret.accounts = s.ret.accounts) (hx : u.account k = some x) : AccountAfter s u k x :=
    hold ((account_congr hu k).symm.trans hx)
  cases h with
  | records same _ => exact hsame (by rw [same.ret]) hx
  | field effect _ =>
    obtain ⟨a, ha, hab⟩ := effect.account hx
    exact .kept a ha hab.kit (fun hs => hab.figures (hs.1 k a ha)) hab.grants
  | control same => exact hsame same.accounts hx
  | cold =>
    rw [account_cold] at hx
    cases hx
  | accountLoaded slot a p range empty kit fresh plan one ceiling arrears grant =>
    rcases account_setAccount_some hx with ⟨rfl, rfl⟩ | hx
    · refine .loaded kit fresh (fun j hj => ?_) (fun hs => ⟨one, ceiling.trans (hs.2 _ p plan), arrears⟩) grant
      exact (account_setAccount s k j (some x)).trans (if_neg fun h => hj h.1)
    · exact hold hx
  | accountUnloaded slot a => exact hold (account_setAccount_none hx)
  | accountWritten slot a b present kit _ figures grants =>
    rcases account_setAccount_some hx with ⟨rfl, rfl⟩ | hx
    · exact .kept a present kit figures grants
    · exact hold hx
  | planChanged slot a n present =>
    rcases account_setAccount_some hx with ⟨rfl, rfl⟩ | hx
    · exact .kept a present rfl (fun hs => hs.1 k a present) id
    · exact hold hx
  | _ => exact hsame rfl hx

/-- The credit ceilings of the plans keep their range. -/
theorem ceilings_change (h : Change s t) (hs : ∀ n p, s.plan n = some p → p.creditCeiling ≤ maxWh) :
    ∀ n p, t.plan n = some p → p.creditCeiling ≤ maxWh := by
  intro n p hp
  have hsame {u : State} (hu : u.ret.plans = s.ret.plans) (hp : u.plan n = some p) : p.creditCeiling ≤ maxWh :=
    hs n p ((plan_congr hu n).symm.trans hp)
  have hmoved {u : State} {m : Nat} {f : Nat → Nat} (hu : ∀ n p, u.plan n = some p → p.creditCeiling ≤ maxWh) {n : Nat}
      {p : Plan} (hp : (u.mapUseCount m f).plan n = some p) : p.creditCeiling ≤ maxWh := by
    obtain ⟨q, hq, heq⟩ := plan_mapUseCount_ceiling hp
    exact heq.trans_le (hu n q hq)
  cases h with
  | records same _ => exact hsame (by rw [same.ret]) hp
  | field effect _ => exact hsame (by rw [effect.ret]) hp
  | control same => exact hsame same.plans hp
  | cold =>
    rw [plan_cold] at hp
    cases hp
  | planLoaded m q _ _ ceiling =>
    rw [plan_setPlan] at hp
    split at hp
    · cases hp
      exact ceiling
    · exact hs n p hp
  | planUnloaded m q =>
    rw [plan_setPlan] at hp
    split at hp
    · cases hp
    · exact hs n p hp
  | accountLoaded slot a => exact hmoved (u := s.setAccount slot (some a)) hs hp
  | accountUnloaded slot a => exact hmoved (m := a.plan) (f := (· - 1)) hs hp
  | planChanged slot a m =>
    exact hmoved (u := s.mapUseCount a.plan (· - 1)) (m := m) (f := (· + 1)) (fun _ _ => hmoved hs) hp
  | _ => exact hsame rfl hp

theorem figuresSound_change (h : Change s t) (hs : s.FiguresSound) : t.FiguresSound := by
  refine ⟨fun k x hx => ?_, ceilings_change h hs.2⟩
  cases accountAfter_change h hx with
  | kept _ _ _ figures => exact figures hs
  | loaded _ _ _ figures => exact figures hs

/-- Settles O8: every operation on a record keeps the figures sound, and a fresh balance is within its plan's ceiling. -/
theorem stepKeepsFiguresSound : Obligations.StepKeepsFiguresSound := fun _ _ hs hloss h =>
  step_keeps_retained (fun _ _ => figuresSound_change) hloss h hs

theorem kitIdsUnique_change (h : Change s t) (hs : s.KitIdsUnique) : t.KitIdsUnique := by
  obtain ⟨hnonzero, hunique⟩ := hs
  refine ⟨fun k x hx => ?_, fun j k x y hx hy hxy => ?_⟩
  · cases accountAfter_change h hx with
    | kept a ha kit => exact kit ▸ hnonzero k a ha
    | loaded kit => exact kit
  by_contra hjk
  -- A fresh record is alone in its kit id, so both accounts were there before.
  cases accountAfter_change h hx with
  | loaded _ fresh others => exact fresh k y ((others k (Ne.symm hjk)).symm.trans hy) hxy.symm
  | kept a ha hxa =>
    cases accountAfter_change h hy with
    | loaded _ fresh others => exact fresh j x ((others j hjk).symm.trans hx) hxy
    | kept b hb hyb => exact hjk (hunique j k a b ha hb (hxa.symm.trans (hxy.trans hyb)))

/-- Settles O9: LOAD_ACCOUNT checks its kit id against every account, and no other operation writes one. -/
theorem stepKeepsKitIdsUnique : Obligations.StepKeepsKitIdsUnique := fun _ _ hs hloss h =>
  step_keeps_retained (fun _ _ => kitIdsUnique_change) hloss h hs

theorem grantsExclusive_change (h : Change s t) (hs : s.GrantsExclusive) : t.GrantsExclusive := by
  intro k x hx
  cases accountAfter_change h hx with
  | kept a ha _ _ grants => exact grants (hs k a ha)
  | loaded _ _ _ _ grant =>
    intro hsome
    rw [grant] at hsome
    cases hsome

/-- Settles O10: only the poll request makes a grant, in ACTIVE and without a withdrawn one, and leaving ACTIVE cancels it. -/
theorem stepKeepsGrantsExclusive : Obligations.StepKeepsGrantsExclusive := fun _ _ hs hloss h =>
  step_keeps_retained (fun _ _ => grantsExclusive_change) hloss h hs

/-! ### The use counts (01, 02) -/

/-- Whether a slot's account names a plan. -/
def namesPlan (n : Nat) : Option Account → Bool
  | some a => a.plan == n
  | none => false

theorem namesPlan_pos {n : Nat} {a : Account} (h : n = a.plan) : namesPlan n (some a) = true := beq_iff_eq.2 h.symm

theorem namesPlan_neg {n : Nat} {a : Account} (h : n ≠ a.plan) : namesPlan n (some a) = false :=
  beq_eq_false_iff_ne.2 (Ne.symm h)

theorem usersOf_eq (s : State) (n : Nat) : s.usersOf n = s.ret.accounts.toList.countP (namesPlan n) := rfl

theorem usersOf_congr (h : t.ret.accounts = s.ret.accounts) (n : Nat) : t.usersOf n = s.usersOf n := by
  rw [usersOf_eq, usersOf_eq, h]

/-- A slot written moves a plan's number of users by the slot's own account. -/
theorem usersOf_setAccount {k : Nat} (hk : 1 ≤ k ∧ k ≤ 384) (x : Option Account) (n : Nat) :
    (s.setAccount k x).usersOf n + (namesPlan n (s.account k)).toNat = s.usersOf n + (namesPlan n x).toNat := by
  have hpos : slotPos k < s.ret.accounts.toList.length := by simpa using slotPos_lt.2 hk
  have hread : s.account k = s.ret.accounts.toList[slotPos k] := by
    simp [State.account, slotPos_lt.2 hk]
  have hcount := List.countP_set (p := namesPlan n) (a := x) hpos
  have hset : (s.ret.accounts.setIfInBounds (slotPos k) x).toList = s.ret.accounts.toList.set (slotPos k) x := by simp
  rw [usersOf_eq, usersOf_eq, State.setAccount_ret_accounts, hset, hcount, hread]
  have hle : (if namesPlan n s.ret.accounts.toList[slotPos k] = true then 1 else 0) ≤
      s.ret.accounts.toList.countP (namesPlan n) := by
    split
    · next h => exact List.countP_pos_iff.2 ⟨_, List.getElem_mem hpos, h⟩
    · exact Nat.zero_le _
  have hbit (b : Bool) : b.toNat = if b = true then 1 else 0 := by cases b <;> rfl
  rw [hbit, hbit]
  omega

/-- An absent plan has no users. -/
theorem usersOf_absent {n : Nat} (hs : s.UseCountsAgree) (hn : s.plan n = none) : s.usersOf n = 0 := by
  rw [usersOf_eq, List.countP_eq_zero]
  intro x hx hnames
  cases x with
  | none => cases hnames
  | some a =>
    obtain ⟨i, hi, hread⟩ := List.getElem_of_mem hx
    have hi' : i < 384 := by simpa using hi
    have ha : s.account (i + 1) = some a := by
      simpa [State.account, slotPos, hi'] using hread
    have := hs.2 _ a ha
    rw [beq_iff_eq.1 hnames, hn] at this
    cases this

/-- A plan loaded keeps its use count, or starts at 0 without users (R27). -/
theorem useCount_loaded {p : Plan} {n : Nat} (hs : s.UseCountsAgree)
    (huses : p.useCount = ((s.plan n).map Plan.useCount).getD 0) : p.useCount = s.usersOf n := by
  cases hp : s.plan n with
  | none => simpa [hp, usersOf_absent hs hp] using huses
  | some q => simpa [hp, hs.1 n q hp] using huses

theorem useCountsAgree_congr (hplans : t.ret.plans = s.ret.plans) (haccounts : t.ret.accounts = s.ret.accounts)
    (hs : s.UseCountsAgree) : t.UseCountsAgree := by
  simp only [State.UseCountsAgree, plan_congr hplans, account_congr haccounts, usersOf_congr haccounts]
  exact hs

theorem plan_isSome_mapUseCount (s : State) (n m : Nat) (f : Nat → Nat) :
    ((s.mapUseCount n f).plan m).isSome = (s.plan m).isSome := by
  rw [plan_mapUseCount]
  split
  · exact Option.isSome_map
  · rfl

/-- Accounts that name the same plans, slot by slot, make the same numbers of users. -/
theorem usersOf_of_slots {n : Nat} (h : ∀ k, namesPlan n (t.account k) = namesPlan n (s.account k)) :
    t.usersOf n = s.usersOf n := by
  have hmap : t.ret.accounts.toList.map (namesPlan n) = s.ret.accounts.toList.map (namesPlan n) := by
    refine List.ext_getElem (by simp) fun i hi _ => ?_
    have hi' : i < 384 := by simpa using hi
    simpa [State.account, slotPos, hi'] using h (i + 1)
  have hcount (l : List (Option Account)) : l.countP (namesPlan n) = (l.map (namesPlan n)).countP id :=
    (List.countP_map (p := id) (f := namesPlan n)).symm
  rw [usersOf_eq, usersOf_eq, hcount, hmap, ← hcount]

theorem LinkEffect.useCountsAgree (h : LinkEffect s t) (hs : s.UseCountsAgree) : t.UseCountsAgree := by
  have husers (n : Nat) : t.usersOf n = s.usersOf n := by
    refine usersOf_of_slots fun k => ?_
    rcases h.accounts k with ⟨hx, hy⟩ | ⟨a, b, hx, hy, hchange⟩
    · rw [hx, hy]
    · rw [hx, hy]
      exact congrArg (· == n) (kept_fieldChange hchange).plan
  refine ⟨fun n p hp => ?_, fun k b hb => ?_⟩
  · rw [husers]
    exact hs.1 n p ((h.plan n).symm.trans hp)
  · obtain ⟨a, ha, hab⟩ := h.account hb
    rw [h.plan, hab.plan]
    exact hs.2 k a ha

/-- An account that fills an EMPTY slot is one user more of its plan (R15, R22). -/
theorem useCountsAgree_accountLoaded {k : Nat} {a : Account} (hk : 1 ≤ k ∧ k ≤ 384) (hempty : s.account k = none)
    (hplan : (s.plan a.plan).isSome) (hs : s.UseCountsAgree) :
    ((s.setAccount k (some a)).mapUseCount a.plan (· + 1)).UseCountsAgree := by
  obtain ⟨hcount, hpresent⟩ := hs
  refine ⟨fun n p hp => ?_, fun j x hx => ?_⟩
  · have husers := usersOf_setAccount (s := s) hk (some a) n
    have hmoved : ((s.setAccount k (some a)).mapUseCount a.plan (· + 1)).usersOf n = (s.setAccount k (some a)).usersOf n := rfl
    rw [hmoved]
    rw [hempty] at husers
    rw [plan_mapUseCount] at hp
    split at hp
    · next hn =>
      obtain ⟨q, hq, rfl⟩ := Option.map_eq_some_iff.1 hp
      have := hcount n q hq
      rw [namesPlan_pos hn] at husers
      simp [namesPlan] at *
      omega
    · next hn =>
      have := hcount n p hp
      rw [namesPlan_neg hn] at husers
      simp [namesPlan] at husers
      omega
  · rw [plan_isSome_mapUseCount]
    rcases account_setAccount_some hx with ⟨-, rfl⟩ | hx
    · exact hplan
    · exact hpresent j x hx

/-- An account that becomes EMPTY is one user less of its plan (R16, R22). -/
theorem useCountsAgree_accountUnloaded {k : Nat} {a : Account} (ha : s.account k = some a) (hs : s.UseCountsAgree) :
    ((s.mapUseCount a.plan (· - 1)).setAccount k none).UseCountsAgree := by
  obtain ⟨hcount, hpresent⟩ := hs
  refine ⟨fun n p hp => ?_, fun j x hx => ?_⟩
  · have husers := usersOf_setAccount (s := s.mapUseCount a.plan (· - 1)) (account_range ha) none n
    have hmoved : (s.mapUseCount a.plan (· - 1)).usersOf n = s.usersOf n := rfl
    have hread : (s.mapUseCount a.plan (· - 1)).account k = some a := ha
    rw [hmoved, hread] at husers
    have hp : (s.mapUseCount a.plan (· - 1)).plan n = some p := hp
    rw [plan_mapUseCount] at hp
    split at hp
    · next hn =>
      obtain ⟨q, hq, rfl⟩ := Option.map_eq_some_iff.1 hp
      have := hcount n q hq
      rw [namesPlan_pos hn] at husers
      simp [namesPlan] at *
      omega
    · next hn =>
      have := hcount n p hp
      rw [namesPlan_neg hn] at husers
      simp [namesPlan] at husers
      omega
  · have hold : s.account j = some x := account_setAccount_none (s := s.mapUseCount a.plan (· - 1)) hx
    have hplan := plan_congr (s := s.mapUseCount a.plan (· - 1)) (t := (s.mapUseCount a.plan (· - 1)).setAccount k none)
      (State.setAccount_ret_plans ..) x.plan
    rw [hplan, plan_isSome_mapUseCount]
    exact hpresent j x hold

/-- An account that names another plan moves both use counts (R13, R22). -/
theorem useCountsAgree_planChanged {k n : Nat} {a : Account} (ha : s.account k = some a) (hn : (s.plan n).isSome)
    (hne : n ≠ a.plan) (hs : s.UseCountsAgree) :
    (((s.mapUseCount a.plan (· - 1)).mapUseCount n (· + 1)).setAccount k (some { a with plan := n })).UseCountsAgree := by
  obtain ⟨hcount, hpresent⟩ := hs
  refine ⟨fun m p hp => ?_, fun j x hx => ?_⟩
  · have husers := usersOf_setAccount (s := (s.mapUseCount a.plan (· - 1)).mapUseCount n (· + 1)) (account_range ha)
      (some { a with plan := n }) m
    have hmoved : ((s.mapUseCount a.plan (· - 1)).mapUseCount n (· + 1)).usersOf m = s.usersOf m := rfl
    have hread : ((s.mapUseCount a.plan (· - 1)).mapUseCount n (· + 1)).account k = some a := ha
    rw [hmoved, hread] at husers
    have hp : ((s.mapUseCount a.plan (· - 1)).mapUseCount n (· + 1)).plan m = some p := hp
    rw [plan_mapUseCount, plan_mapUseCount] at hp
    by_cases hnew : m = n
    · subst hnew
      rw [if_pos rfl, if_neg hne] at hp
      obtain ⟨q, hq, rfl⟩ := Option.map_eq_some_iff.1 hp
      have := hcount m q hq
      rw [namesPlan_pos (a := { a with plan := m }) rfl, namesPlan_neg hne] at husers
      simp at husers ⊢
      omega
    · rw [if_neg hnew] at hp
      by_cases hold : m = a.plan
      · subst hold
        rw [if_pos rfl] at hp
        obtain ⟨q, hq, rfl⟩ := Option.map_eq_some_iff.1 hp
        have := hcount _ q hq
        rw [namesPlan_pos rfl, namesPlan_neg (a := { a with plan := n }) hnew] at husers
        simp at husers ⊢
        omega
      · rw [if_neg hold] at hp
        have := hcount m p hp
        rw [namesPlan_neg hold, namesPlan_neg (a := { a with plan := n }) hnew] at husers
        omega
  · have hsome (m : Nat) :
        ((((s.mapUseCount a.plan (· - 1)).mapUseCount n (· + 1)).setAccount k (some { a with plan := n })).plan m).isSome =
          (s.plan m).isSome :=
      (plan_isSome_mapUseCount (s.mapUseCount a.plan (· - 1)) n m _).trans (plan_isSome_mapUseCount s a.plan m _)
    rw [hsome]
    rcases account_setAccount_some hx with ⟨-, rfl⟩ | hx
    · exact hn
    · exact hpresent j x hx

/-- An account rewritten under the plan it named leaves the users as they are. -/
theorem useCountsAgree_accountWritten {k : Nat} {a b : Account} (ha : s.account k = some a) (hplan : b.plan = a.plan)
    (hs : s.UseCountsAgree) : (s.setAccount k (some b)).UseCountsAgree := by
  obtain ⟨hcount, hpresent⟩ := hs
  refine ⟨fun n p hp => ?_, fun j x hx => ?_⟩
  · have husers := usersOf_setAccount (s := s) (account_range ha) (some b) n
    have hsame : namesPlan n (some b) = namesPlan n (some a) := congrArg (· == n) hplan
    rw [ha, hsame] at husers
    have := hcount n p hp
    omega
  · rcases account_setAccount_some hx with ⟨-, rfl⟩ | hx
    · have := hpresent k a ha
      rwa [← hplan] at this
    · exact hpresent j x hx

/-- A plan written with its users' number as use count, the others as they were (R27). -/
theorem useCountsAgree_planLoaded {n : Nat} {p : Plan} (huses : p.useCount = ((s.plan n).map Plan.useCount).getD 0)
    (hs : s.UseCountsAgree) : (s.setPlan n (some p)).UseCountsAgree := by
  have hmoved (m : Nat) : (s.setPlan n (some p)).usersOf m = s.usersOf m := rfl
  refine ⟨fun m q hq => ?_, fun j x hx => ?_⟩
  · rw [hmoved]
    rw [plan_setPlan] at hq
    split at hq
    · next hm =>
      cases hq
      rw [hm.1]
      exact useCount_loaded hs huses
    · exact hs.1 m q hq
  · rw [plan_setPlan]
    split
    · rfl
    · exact hs.2 j x hx

/-- A plan without users becomes absent (R28). -/
theorem useCountsAgree_planUnloaded {n : Nat} {p : Plan} (hp : s.plan n = some p) (hunused : p.useCount = 0)
    (hs : s.UseCountsAgree) : (s.setPlan n none).UseCountsAgree := by
  refine ⟨fun m q hq => ?_, fun j x hx => plan_isSome_setPlan_none hs hp hunused (slot := j) hx⟩
  rw [plan_setPlan] at hq
  split at hq
  · cases hq
  · exact hs.1 m q hq

theorem useCountsAgree_change (h : Change s t) (hs : s.UseCountsAgree) : t.UseCountsAgree := by
  cases h with
  | records same _ => exact useCountsAgree_congr (by rw [same.ret]) (by rw [same.ret]) hs
  | field effect _ => exact effect.useCountsAgree hs
  | control same => exact useCountsAgree_congr same.plans same.accounts hs
  | cold =>
    refine ⟨fun n p hp => ?_, fun k a ha => ?_⟩
    · rw [plan_cold] at hp
      cases hp
    · rw [account_cold] at ha
      cases ha
  | planLoaded n p _ uses => exact useCountsAgree_planLoaded uses hs
  | planUnloaded n p present unused => exact useCountsAgree_planUnloaded present unused hs
  | accountLoaded slot a p range empty _ _ plan =>
    exact useCountsAgree_accountLoaded range empty (by rw [plan]; rfl) hs
  | accountUnloaded slot a present => exact useCountsAgree_accountUnloaded present hs
  | accountWritten slot a b present _ plan => exact useCountsAgree_accountWritten present plan hs
  | planChanged slot a n present plan other => exact useCountsAgree_planChanged present plan other hs
  | _ => exact useCountsAgree_congr (s := s) rfl rfl hs

/-- Settles O11: an account that comes, goes or changes its plan moves the use counts with it; nothing else names a plan. -/
theorem stepKeepsUseCounts : Obligations.StepKeepsUseCounts := fun _ _ hs hloss h =>
  step_keeps_retained (fun _ _ => useCountsAgree_change) hloss h hs

end Sys2Proof.Machine
end

section
/-!
The block at large (01 to 11): the step and the queue of commands, the state after reset, the losses of a supply, and the commands that
stand for taking a frame.
-/

namespace Sys2Proof.Machine

variable {s t : State} {f : RxFrame} {rest : List RxFrame} {e : Entry} {c : Instr}

/-! ### The queue of commands and the supplies (R183) -/

/-- Settles O1: the step's two cases. -/
theorem stepRunsFrontCommand : Obligations.StepRunsFrontCommand := fun s =>
  ⟨fun c rest h => by simp only [step, h], fun h => by simp only [step, h]⟩

/-- Settles O15: the meanings of the two commands. -/
theorem supplyLossesClearTheirDomains : Obligations.SupplyLossesClearTheirDomains := fun _ => ⟨rfl, rfl⟩

/-! ### The state after reset (R184) -/

theorem account_reset (k : Nat) : State.reset.account k = none := account_cold (s := State.reset) k

theorem plan_reset (n : Nat) : State.reset.plan n = none := plan_cold (s := State.reset) n

/-- Without accounts and plans the invariants of the tables hold. -/
theorem tables_reset :
    State.reset.FiguresSound ∧ State.reset.KitIdsUnique ∧ State.reset.GrantsExclusive ∧ State.reset.UseCountsAgree := by
  simp [State.FiguresSound, State.KitIdsUnique, State.GrantsExclusive, State.UseCountsAgree, account_reset, plan_reset]

theorem reportsBounded_reset : State.reset.ReportsBounded := by
  simp [State.ReportsBounded, State.reset, ReportUnit.afterColdStart]

theorem callersOrdered_reset : State.reset.CallersOrdered := by simp [State.CallersOrdered, State.reset]

theorem countersBounded_reset : State.reset.CountersBounded := countersBounded_clearVolatile State.reset

theorem controlInRange_reset : State.reset.ControlInRange := by
  simp [State.ControlInRange, State.reset, Retained.cold, CycleParams.inRange, NodeConfig.inRange, Clock.Valid, secondsOfDay]

/-- Settles O2: the start values and the cold values meet each invariant. -/
theorem resetMeetsInvariants : Obligations.ResetMeetsInvariants := by
  obtain ⟨hfigures, hkits, hgrants, huses⟩ := tables_reset
  refine ⟨reportsBounded_reset, ⟨Nat.zero_le _, trivial, ?_⟩, callersOrdered_reset, countersBounded_reset,
    ⟨Nat.le_refl _, Nat.zero_le _⟩, dispositionSound_cold (s := State.reset), hfigures, hkits, hgrants, huses,
    controlInRange_reset, calendarLawful_cold (s := State.reset) ?_⟩ <;> simp [State.reset]

/-! ### Taking a frame (R72, R77, R83) -/

/-- What a command that stands for taking a frame does with it. -/
def handlerActionOf : Instr → HandlerAction
  | .setIdentity => actSetIdentity
  | .setConfig => actSetConfig
  | .resetNode => actResetNode
  | .setCycle => actSetCycle
  | .setMode => actSetMode
  | .fieldReset => actFieldReset
  | .clearEscalation => actClearEscalation
  | .setAlarmMask => actSetAlarmMask
  | .readStatus => actReadStatus
  | .loadDisposition => actLoadDisposition
  | .setTime => actSetTime
  | .readCounters => actReadCounters
  | .loadPlan => actLoadPlan
  | .unloadPlan => actUnloadPlan
  | .readPlan => actReadPlan
  | .loadAccount => actLoadAccount
  | .unloadAccount => actUnloadAccount
  | .suspend => actSuspend
  | .resume => actResume
  | .clearQuarantine => actClearQuarantine
  | .changePlan => actChangePlan
  | .adjustCredit => actAdjustCredit
  | .applyVoucher => actApplyVoucher
  | .readAccount => actReadAccount
  | .relayToKit => actRelayToKit
  | .probeKit => actProbeKit
  | .discard => actDiscard
  | _ => actUnknown

/-- The frame in front is taken by a command that admits it. -/
theorem takeFrame_of_admits {admits : RxFrame → State → Bool} {action : HandlerAction} (hpowered : s.powered = true)
    (hfront : s.tp.queue = f :: rest) (hadmits : admits f s = true) :
    s.takeFrame admits action = classify action f (s.setRxQueue rest) := by
  simp [State.takeFrame, hfront, hpowered, hadmits]

theorem namesHandler_of_entry {h : Handler} (hentry : s.entry f.cls = some e) (hh : e.handler = h) :
    namesHandler h f s = true := by
  simp [namesHandler, hentry, hh]

/-- The command for a frame of a present entry classifies it, where HEADER and DISPOSITION have passed. -/
theorem exec_commandFor (hpowered : s.powered = true) (hfront : s.tp.queue = f :: rest) (hentry : s.entry f.cls = some e)
    (hscreen : (∃ m r, screen f s = .refusedBy m r) ∨ ∃ e', screen f s = .passed e') :
    exec (commandFor e.handler f) s =
      .next (classify (handlerActionOf (commandFor e.handler f)) f (s.setRxQueue rest)) := by
  have htaken {admits : RxFrame → State → Bool} (hadmits : admits f s = true) (action : HandlerAction) :
      (.next (s.takeFrame admits action) : Host.Outcome State Fault Refusal) = .next (classify action f (s.setRxQueue rest)) :=
    congrArg _ (takeFrame_of_admits hpowered hfront hadmits)
  have hunknown (h : namesHandler .nodeControl f s = true ∧ f.nodeCommand = none ∨
      namesHandler .setAccountState f s = true ∧ f.accountCommand = none) : namesNothing f s = true := by
    rcases hscreen with ⟨m, r, hs⟩ | ⟨e', hs⟩ <;> simpa [namesNothing, hs] using h
  cases hh : e.handler
  case nodeControl =>
    have hnames := namesHandler_of_entry hentry hh
    cases hcmd : f.nodeCommand with
    | none =>
      simp only [commandFor, hcmd]
      exact htaken (hunknown (.inl ⟨hnames, hcmd⟩)) _
    | some c =>
      have hadmits : namesNodeCommand c f s = true := by simp [namesNodeCommand, hnames, hcmd]
      cases c <;> simp only [commandFor, hcmd] <;> exact htaken hadmits _
  case setAccountState =>
    have hnames := namesHandler_of_entry hentry hh
    cases hcmd : f.accountCommand with
    | none =>
      simp only [commandFor, hcmd]
      exact htaken (hunknown (.inr ⟨hnames, hcmd⟩)) _
    | some c =>
      have hadmits : namesAccountCommand c f s = true := by simp [namesAccountCommand, hnames, hcmd]
      cases c <;> simp only [commandFor, hcmd] <;> exact htaken hadmits _
  all_goals exact htaken (namesHandler_of_entry hentry hh) _

/-- A command that stands for taking an admitted frame classifies it. -/
theorem Takes.exec_eq (h : Takes c s f rest e) : exec c s = .next (classify (handlerActionOf c) f (s.setRxQueue rest)) := by
  rw [← h.command]
  exact exec_commandFor h.powered h.front (entry_of_screen_passed h.passed) (.inr ⟨e, h.passed⟩)

/-- An admitted frame that its handler accepts leaves the handler's state. -/
theorem Takes.exec_ok (h : Takes c s f rest e) (hact : handlerActionOf c e.mode f (s.setRxQueue rest) = .ok t) :
    exec c s = .next t := by
  simp only [h.exec_eq, classify, screen_setRxQueue, h.passed, hact]

/-- An admitted frame that its handler rejects is refused at CONTENT (R83). -/
theorem Takes.exec_error {r : Reject} (h : Takes c s f rest e)
    (hact : handlerActionOf c e.mode f (s.setRxQueue rest) = .error r) :
    exec c s = .next ((s.setRxQueue rest).handRefusal e.mode (refusalRecord f .content r.reason r.table r.index r.figures)) := by
  simp only [h.exec_eq, classify, screen_setRxQueue, h.passed, hact]

/-- A refusal without figures. -/
theorem Takes.exec_reject {r : Reason} {tab : TableId} {i : Nat} (h : Takes c s f rest e)
    (hact : handlerActionOf c e.mode f (s.setRxQueue rest) = reject r tab i) :
    exec c s = .next ((s.setRxQueue rest).refuse e f r tab i) := h.exec_error hact

/-- A refusal under AUTHORITY or TARGET, by the command the frame's entry names (R80 to R82). -/
theorem exec_refusedBy {m : ReportMode} {r : Report} (hpowered : s.powered = true) (hfront : s.tp.queue = f :: rest)
    (hentry : s.entry f.cls = some e) (hscreen : screen f s = .refusedBy m r) :
    exec (commandFor e.handler f) s = .next ((s.setRxQueue rest).handRefusal m r) := by
  simp only [exec_commandFor hpowered hfront hentry (.inl ⟨m, r, hscreen⟩), classify, screen_setRxQueue, hscreen]

end Sys2Proof.Machine
end

section
/-!
The starts (R183 to R185): the links across a reset, then the cold and the warm start.
-/

namespace Sys2Proof.Machine

variable {s t : State} {f : RxFrame} {rest : List RxFrame} {e : Entry}

/-! ### Links across a field reset or a warm start (R137, R138) -/

theorem mem_slotIndices {k : Nat} : k ∈ slotIndices ↔ 1 ≤ k ∧ k ≤ 384 := by
  simp only [slotIndices, List.mem_range'_1]
  omega

theorem link_releaseBringup (s : State) (k j : Nat) : (s.releaseBringup k).link j =
    if j = k ∧ (s.link j).state.inBringup then { s.link j with placement := none } else s.link j := by
  unfold State.releaseBringup
  split
  · next h =>
    rw [link_release]
    by_cases hj : j = k
    · subst hj
      simp [h]
    · simp [hj]
  · next h =>
    by_cases hj : j = k
    · subst hj
      simp [h]
    · simp [hj]

theorem link_foldl_releaseBringup (ks : List Nat) (s : State) (j : Nat) : (ks.foldl State.releaseBringup s).link j =
    if j ∈ ks ∧ (s.link j).state.inBringup then { s.link j with placement := none } else s.link j := by
  induction ks generalizing s with
  | nil => simp
  | cons k ks ih =>
    rw [List.foldl_cons, ih, link_releaseBringup]
    grind

/-- Whether a link of `ks` in BRINGUP holds a placement that covers cell `i`. -/
def FreedBy (ks : List Nat) (s : State) (i : Nat) : Prop :=
  ∃ k ∈ ks, ∃ p, (s.link k).state.inBringup = true ∧ (s.link k).placement = some p ∧ i ∈ p.cells

theorem calendar_releaseBringup (s : State) (k i : Nat) (hi : i < 1536) :
    (FreedBy [k] s i → (s.releaseBringup k).ret.calendar[i]? = some none) ∧
    (¬ FreedBy [k] s i → (s.releaseBringup k).ret.calendar[i]? = s.ret.calendar[i]?) := by
  unfold State.releaseBringup FreedBy
  simp only [List.mem_singleton, exists_eq_left]
  split
  · next h =>
    rw [release_calendar]
    simp only [h, hi, true_and, and_true]
    exact ⟨fun hf => if_pos hf, fun hf => if_neg hf⟩
  · next h =>
    exact ⟨fun ⟨_, hb, _⟩ => absurd hb h, fun _ => rfl⟩

theorem freedBy_cons (k : Nat) (ks : List Nat) (s : State) (i : Nat) :
    FreedBy (k :: ks) s i ↔ FreedBy [k] s i ∨ FreedBy ks (s.releaseBringup k) i := by
  simp only [FreedBy, link_releaseBringup]
  grind

/-- A cell in the placement of a link of `ks` in BRINGUP is freed, any other stays. -/
theorem calendar_foldl_releaseBringup (ks : List Nat) (s : State) (i : Nat) (hi : i < 1536) :
    (FreedBy ks s i → (ks.foldl State.releaseBringup s).ret.calendar[i]? = some none) ∧
    (¬ FreedBy ks s i → (ks.foldl State.releaseBringup s).ret.calendar[i]? = s.ret.calendar[i]?) := by
  induction ks generalizing s with
  | nil => exact ⟨fun ⟨_, hk, _⟩ => (List.not_mem_nil hk).elim, fun _ => rfl⟩
  | cons k ks ih =>
    obtain ⟨hfreed, hkept⟩ := ih (s.releaseBringup k)
    obtain ⟨hfreed', hkept'⟩ := calendar_releaseBringup s k i hi
    rw [freedBy_cons, List.foldl_cons]
    by_cases hrest : FreedBy ks (s.releaseBringup k) i
    · exact ⟨fun _ => hfreed hrest, fun h => absurd (.inr hrest) h⟩
    · refine ⟨fun h => ?_, fun h => (hkept hrest).trans (hkept' fun hk => h (.inl hk))⟩
      exact (hkept hrest).trans (hfreed' (h.resolve_right hrest))

/-- Releases write calendar and links alone. -/
theorem release_frame (s : State) (k : Nat) :
    s.release k = { s with ret := { s.ret with calendar := (s.release k).ret.calendar, links := (s.release k).ret.links } } := by
  unfold State.release
  split <;> rfl

theorem foldl_releaseBringup_frame (ks : List Nat) (s : State) : ks.foldl State.releaseBringup s =
    { s with ret := { s.ret with
      calendar := (ks.foldl State.releaseBringup s).ret.calendar, links := (ks.foldl State.releaseBringup s).ret.links } } := by
  induction ks generalizing s with
  | nil => rfl
  | cons k ks ih =>
    have hstep : s.releaseBringup k = { s with ret := { s.ret with
        calendar := (s.releaseBringup k).ret.calendar, links := (s.releaseBringup k).ret.links } } := by
      unfold State.releaseBringup
      split
      · exact release_frame s k
      · rfl
    rw [List.foldl_cons, ih]
    generalize ks.foldl State.releaseBringup (s.releaseBringup k) = u
    rw [hstep]

/-- Bring-ups abandoned and kits silenced: calendar and links alone are written. -/
theorem silenceLinks_frame (s : State) : s.silenceLinks =
    { s with ret := { s.ret with calendar := s.silenceLinks.ret.calendar, links := s.silenceLinks.ret.links } } := by
  unfold State.silenceLinks
  dsimp only
  generalize hu : slotIndices.foldl State.releaseBringup s = u
  have h := foldl_releaseBringup_frame slotIndices s
  rw [hu] at h
  rw [h]

theorem link_silenceLinks (s : State) (k : Nat) : s.silenceLinks.link k = (s.link k).afterReset := by
  have hsilence : s.silenceLinks.link k = ((slotIndices.foldl State.releaseBringup s).link k).silence := by
    by_cases hk : 1 ≤ k ∧ k ≤ 384
    · simp [State.silenceLinks, State.link, slotPos_lt.2 hk]
    · rw [link_out hk, link_out hk]
      rfl
  rw [hsilence, link_foldl_releaseBringup]
  unfold LinkRetained.silence LinkRetained.afterReset
  by_cases hk : 1 ≤ k ∧ k ≤ 384
  · cases hs : (s.link k).state <;> simp [mem_slotIndices.2 hk, hs, LinkState.inBringup]
  · simp [link_out hk, LinkState.inBringup]

/-- The links after a field reset or a warm start (R137 steps 2 and 3; R138). -/
theorem linksReset_silenceLinks (s : State) : LinksReset s s.silenceLinks := by
  have hcalendar : s.silenceLinks.ret.calendar = (slotIndices.foldl State.releaseBringup s).ret.calendar := by
    rw [State.silenceLinks]
  refine ⟨link_silenceLinks s, fun i hi => ?_, fun i hi => ?_⟩ <;> rw [hcalendar]
  · by_cases hlt : i < 1536
    · rw [(calendar_foldl_releaseBringup _ _ _ hlt).1 hi]
      rfl
    · rw [Vector.getElem?_eq_none (Nat.not_lt.1 hlt)]
      rfl
  · by_cases hlt : i < 1536
    · exact (calendar_foldl_releaseBringup _ _ _ hlt).2 hi
    · rw [Vector.getElem?_eq_none (Nat.not_lt.1 hlt), Vector.getElem?_eq_none (Nat.not_lt.1 hlt)]

/-! ### The two starts (R184, R185) -/

/-- An essential record is admitted with an entry free (R167). -/
theorem hand_essential {r : Report} (hclass : r.body.reportClass = .essential) (hfree : 1 ≤ s.free) : s.hand r = s.enqueue r := by
  simp only [State.hand, hclass, State.handPlain, ReportClass.margin, if_pos hfree]

/-- A cause newly set and enabled makes its ALARM record where 9 entries are free (R167, R173). -/
theorem raise_admitted {c : AlarmCause} {a m : AlarmFlags} (halarms : s.ru.alarms = a) (hmask : s.ru.mask = m)
    (hclear : c.inFlags a = false) (henabled : c.inFlags m = true) (hfree : 9 ≤ s.free) : s.raise c =
      { s with ru := { s.ru with alarms := c.setIn a, queue := s.ru.queue ++ [s.alarmRecord c] } } := by
  subst halarms hmask
  have hmask' : c.inFlags (s.setAlarm c).ru.mask = true := henabled
  have hset : 9 ≤ (s.setAlarm c).free := hfree
  simp only [State.raise, hclear, hmask', Bool.false_eq_true, if_false, if_true, State.handPlain]
  exact if_pos hset

/-- A state whose Report Unit stands at its start values hands over a RESTART first (R184 step 3). -/
theorem hand_restart (hru : s.ru = {}) (kind : StartKind) (cause : StartCause) (tag x y : Nat) :
    s.hand (s.restartRecord kind cause tag x y) = { s with ru := { queue := [s.restartRecord kind cause tag x y] } } := by
  have hfree : 1 ≤ s.free := by simp [State.free, hru]
  rw [hand_essential rfl hfree]
  unfold State.enqueue
  rw [hru]
  rfl

theorem accountCount_cold (s : State) : State.accountCount { s with ret := Retained.cold } = 0 := by
  unfold State.accountCount Retained.cold
  rw [Vector.toList_replicate, List.countP_replicate]
  rfl

theorem planCount_cold (s : State) : State.planCount { s with ret := Retained.cold } = 0 := by
  unfold State.planCount Retained.cold
  rw [Vector.toList_replicate, List.countP_replicate]
  rfl

theorem start_cold (s : State) (cause : StartCause) (tag : Nat) : s.start .cold cause tag = coldStarted s cause tag := by
  have hrecord : State.restartRecord { s.clearVolatile with ret := Retained.cold } .cold cause tag 0 0 =
      ⟨tag, 0, .restart ⟨.cold, cause, 0, 255, ⟨false, 0, 0⟩, .quiet, 0, 0, 0, 0⟩⟩ := by
    unfold State.restartRecord
    rw [accountCount_cold, planCount_cold]
    rfl
  unfold State.start State.startRetention
  simp only [StartKind.causes, List.foldl_cons, List.foldl_nil]
  rw [hand_restart rfl, hrecord, raise_admitted (c := .coldRestart) (a := 0) (m := 0x1ff) rfl rfl (by decide) (by decide) (by simp [State.free]),
    raise_admitted (c := .clockUnset) (a := 1) (m := 0x1ff) rfl rfl (by decide)
    (by decide) (by simp [State.free])]
  rfl

/-- The warm start in closed form: links reset, RESTART and the ALARM of WARM_RESTART, the rest of the volatile state at its start
values. -/
theorem start_warm_eq (s : State) (cause : StartCause) (tag : Nat) : s.start .warm cause tag =
    { s with
      powered := true
      retentionValid := true
      ret := s.clearVolatile.silenceLinks.ret
      tp := {}
      lc := {}
      counters := {}
      fp :=
        { idInEffect := s.ret.nodeId
          rankInEffect := s.ret.rank
          effective := effectiveMode s.ret.nodeId false s.ret.requested }
      ru :=
        { queue :=
            [⟨tag, 0, .restart ⟨.warm, cause, s.ret.nodeId, s.ret.rank, s.ret.clock, s.ret.requested, s.accountCount, s.planCount,
                s.countLinks (fun l => l == .bound), s.countLinks LinkState.inBringup⟩⟩,
             ⟨0, 0, .alarm .warmRestart 65535 s.ret.clock⟩]
          alarms := 0b10 } } := by
  unfold State.start State.startRetention
  simp only [StartKind.causes, List.foldl_cons, List.foldl_nil]
  have hframe := silenceLinks_frame s.clearVolatile
  generalize s.clearVolatile.silenceLinks = u at *
  rw [hframe, hand_restart rfl, raise_admitted (c := .warmRestart) (a := 0) (m := 0x1ff) rfl rfl (by decide)
    (by decide) (by simp [State.free])]
  rfl

theorem start_warm (s : State) (cause : StartCause) (tag : Nat) : WarmStarted s (s.start .warm cause tag) cause tag := by
  have hlinks := linksReset_silenceLinks s.clearVolatile
  have hframe := congrArg State.ret (silenceLinks_frame s.clearVolatile)
  rw [start_warm_eq]
  generalize s.clearVolatile.silenceLinks = u at *
  exact ⟨rfl, rfl, rfl, rfl, hframe, hlinks, rfl, rfl, rfl, rfl, rfl⟩

theorem actResetNode_kind {mode : ReportMode} {kind : StartKind} (hc : f.count = 2)
    (hkind : StartKind.ofCode (byteAt f.payload 1) = some kind) :
    actResetNode mode f s = .ok (s.start kind .command f.tag) := by
  simp [actResetNode, hc, hkind]

theorem actResetNode_noKind {mode : ReportMode} (hc : f.count = 2) (hkind : StartKind.ofCode (byteAt f.payload 1) = none) :
    actResetNode mode f s = reject .resetKind .none 0 := by
  simp [actResetNode, hc, hkind]

/-- A start clears the receive queue, so the frame in hand is gone with it. -/
theorem warmStarted_setRxQueue {cause : StartCause} {tag : Nat} {q : List RxFrame} (h : WarmStarted (s.setRxQueue q) t cause tag) :
    WarmStarted s t cause tag := by
  obtain ⟨hpowered, hvalid, hpending, hfree, hret, hlinks, htp, hlc, hcounters, hfp, hru⟩ := h
  exact ⟨hpowered, hvalid, hpending, hfree, hret, hlinks, htp, hlc, hcounters, hfp, hru⟩

/-- Settles O14: each kind of start in closed form; a kind without a start is refused. -/
theorem powerUpAndResetNodeStart : Obligations.PowerUpAndResetNodeStart := by
  intro s
  refine ⟨fun hmark => ?_, fun hmark => ?_, fun f rest e h hc => ⟨fun hkind => ?_, fun hkind => ?_, fun hcold hwarm => ?_⟩⟩
  · rw [← start_cold]
    simp only [exec, execPowerUp, hmark, Bool.false_eq_true, if_false]
  · refine ⟨s.start .warm .power 0, ?_, start_warm s .power 0⟩
    simp only [exec, execPowerUp, hmark, if_true]
  · have hact := actResetNode_kind (mode := e.mode) (s := s.setRxQueue rest) (kind := .cold) hc (by rw [hkind]; rfl)
    exact (h.exec_ok hact).trans (congrArg _ (start_cold _ _ _))
  · have hact := actResetNode_kind (mode := e.mode) (s := s.setRxQueue rest) (kind := .warm) hc (by rw [hkind]; rfl)
    exact ⟨_, h.exec_ok hact, warmStarted_setRxQueue (start_warm _ _ _)⟩
  · refine h.exec_reject (actResetNode_noKind (mode := e.mode) hc ?_)
    unfold StartKind.ofCode
    split
    · next hone => exact absurd hone hcold
    · next htwo => exact absurd htwo hwarm
    · rfl

end Sys2Proof.Machine
end

section
/-!
The Trunk Port (05): the receiver byte by byte, the checks at a frame's close, framing against reception, and the transmitter.
-/

namespace Sys2Proof.Machine

variable {s : State} {r : Reception} {b : Byte}

/-! ### The receiver byte by byte (R90 to R94) -/

theorem receiveByte_content (hpowered : s.powered = true) (hb : b ≠ delimiterByte) : s.receiveByte b = s.contentStep b := by
  simp [State.receiveByte, hpowered, hb]

theorem receiveByte_delimiter (hpowered : s.powered = true) : s.receiveByte delimiterByte = s.delimiterStep := by
  simp [State.receiveByte, hpowered]

theorem contentStep_open (h : s.tp.receiver = .open) : s.contentStep b =
    if s.tp.queue.length < 16 then s.setReceiver (.receive (Reception.empty.take b))
    else (s.bump .overrun).setReceiver .discard := by
  simp only [State.contentStep, h]

theorem contentStep_receive (h : s.tp.receiver = .receive r) : s.contentStep b =
    if 60 < (r.take b).count then (s.bump .oversize).setReceiver .discard else s.setReceiver (.receive (r.take b)) := by
  simp only [State.contentStep, h]
  rfl

theorem contentStep_idle (h : s.tp.receiver = .hunt ∨ s.tp.receiver = .discard) : s.contentStep b = s := by
  rcases h with h | h <;> simp only [State.contentStep, h]

theorem delimiterStep_idle (h : ∀ r, s.tp.receiver ≠ .receive r) : s.delimiterStep = s.setReceiver .open := by
  unfold State.delimiterStep
  split
  · rfl
  · rfl
  · rfl
  · next r hr => exact absurd hr (h r)

theorem Reception.take_plain (h : r.escaped = false) (hb : b ≠ escapeByte) :
    r.take b = { r with content := r.content ++ [b], count := r.count + 1 } := by
  simp [Reception.take, h, hb]

theorem Reception.take_escape (h : r.escaped = false) : r.take escapeByte = { r with count := r.count + 1, escaped := true } := by
  simp [Reception.take, h]

theorem Reception.take_pair {c : Byte} (h : r.escaped = true) (hb : unescape b = some c) :
    r.take b = { r with content := r.content ++ [c], escaped := false } := by
  simp [Reception.take, h, hb]

theorem Reception.take_broken (h : r.escaped = true) (hb : unescape b = none) :
    r.take b = { r with escaped := false, broken := true } := by
  simp [Reception.take, h, hb]

theorem Reception.empty_take (b : Byte) :
    Reception.empty.take b = ⟨if b = escapeByte then [] else [b], 1, b == escapeByte, false⟩ := by
  by_cases hb : b = escapeByte <;> simp [Reception.take, Reception.empty, hb]

/-- A byte in RECEIVE that stays within the limit is stored (R90, R94). -/
theorem exec_contentByte_stored {r' : Reception} (hpowered : s.powered = true) (hb : b ≠ delimiterByte)
    (hr : s.tp.receiver = .receive r) (htake : r.take b = r') (hcount : r'.count ≤ 60) :
    exec (.contentByte b) s = .next (s.setReceiver (.receive r')) := by
  refine congrArg Host.Outcome.next ((receiveByte_content hpowered hb).trans ((contentStep_receive hr).trans ?_))
  rw [htake, if_neg (Nat.not_lt.2 hcount)]

/-- Settles O16: the receiver's four states, and within RECEIVE the byte by what the open escape makes of it. -/
theorem receiverTakesBytes : Obligations.ReceiverTakesBytes := by
  intro s b hpowered hb
  have hcontent {u : State} (h : s.contentStep b = u) (c : Instr) (hc : exec c s = .next (s.receiveByte b)) :
      exec c s = .next u := hc.trans (congrArg _ ((receiveByte_content hpowered hb).trans h))
  refine ⟨fun hopen => ⟨fun hfree => ⟨?_, ?_⟩, fun hfull => ?_⟩, fun hidle => ?_, fun hidle => ⟨?_, ?_⟩, fun r hr => ?_⟩
  · refine hcontent ((contentStep_open hopen).trans ?_) (.frameBegin b) rfl
    rw [if_pos hfree, Reception.empty_take]
  · simp only [State.receiveReady, State.setReceiver_powered, hpowered, TrunkPort.used, State.setReceiver_tp, Bool.true_and]
    exact decide_eq_decide.2 (by omega)
  · exact hcontent ((contentStep_open hopen).trans (if_neg (Nat.not_lt.2 hfull))) (.frameBegin b) rfl
  · exact hcontent (contentStep_idle hidle) (.contentByte b) rfl
  · simp only [exec, execGapExpiry]
    split
    · next r hr => exact absurd hr (hidle r)
    all_goals rfl
  · exact congrArg Host.Outcome.next ((receiveByte_delimiter hpowered).trans (delimiterStep_idle hidle))
  have hstored {r' : Reception} := exec_contentByte_stored (r' := r') hpowered hb hr
  refine ⟨fun he hc hplain => ?_, fun he hc hesc => ?_, fun he hc hpair => ?_, fun he hc hpair => ?_, fun he hc h1 h2 => ?_,
    fun he hc => ?_, ?_⟩
  · exact hstored (Reception.take_plain he hplain) hc
  · subst hesc
    exact hstored (Reception.take_escape he) hc
  · exact hstored (Reception.take_pair he (by simp [unescape, hpair])) hc
  · exact hstored (Reception.take_pair he (by simp [unescape, hpair])) hc
  · exact hstored (Reception.take_broken he ((if_neg h1).trans (if_neg h2))) hc
  · refine hcontent ((contentStep_receive hr).trans (if_pos ?_)) (.oversizeByte b) rfl
    by_cases hesc : b = escapeByte
    · subst hesc
      rw [Reception.take_escape he]
      exact Nat.lt_succ_of_le hc
    · rw [Reception.take_plain he hesc]
      exact Nat.lt_succ_of_le hc
  · simp only [exec, execGapExpiry, hr, hpowered, if_true]

/-! ### The close of a frame (R95, R96) -/

/-- What a frame's close leaves (R95, R96). -/
def State.closed (s : State) : CloseResult → State
  | .checkFailure => ((s.setReceiver .open).bump .trunkCheck).raise .trunkCheck
  | .surplus => (s.setReceiver .open).bump .oversize
  | .accepted f => (s.setReceiver .open).setRxQueue (s.tp.queue ++ [f])

theorem delimiterStep_receive (h : s.tp.receiver = .receive r) : s.delimiterStep = s.closed r.close := by
  simp only [State.delimiterStep, h]
  cases r.close <;> rfl

/-- The close's checks in order (R95, R96). -/
theorem Reception.close_eq (r : Reception) :
    let n := r.content.length
    let body := r.content.take (n - 4)
    let f : RxFrame := ⟨body.take 8, body.drop 8⟩
    r.close =
      if r.broken = true ∨ r.escaped = true ∨ n < 12 ∨ r.content.drop (n - 4) ≠ beBytes 4 (crc32 body).toNat then .checkFailure
      else if f.statedLength < n - 12 then .surplus else .accepted f := by
  intro n body f
  have hcount : f.count = n - 12 := by
    simp only [RxFrame.count, f, body, List.length_drop, List.length_take]
    omega
  unfold Reception.close
  simp only [Bool.or_eq_true]
  rw [hcount]
  by_cases hbroken : r.broken = true ∨ r.escaped = true
  · rw [if_pos hbroken, if_pos (by tauto)]
  by_cases hshort : n < 12
  · rw [if_neg hbroken, if_pos hshort, if_pos (by tauto)]
  by_cases hcrc : r.content.drop (n - 4) ≠ beBytes 4 (crc32 body).toNat
  · rw [if_neg hbroken, if_neg hshort, if_pos hcrc, if_pos (by tauto)]
  · have hgood : ¬ (r.broken = true ∨ r.escaped = true ∨ n < 12 ∨
        r.content.drop (n - 4) ≠ beBytes 4 (crc32 body).toNat) := by tauto
    rw [if_neg hbroken, if_neg hshort, if_neg hcrc, if_neg hgood]

/-- Settles O17: the close's checks in order. -/
theorem frameCloseChecks : Obligations.FrameCloseChecks := by
  intro s r hpowered hr n body bad f u
  have hclose {x : CloseResult} (hx : r.close = x) : exec .frameClose s = .next (s.closed x) := by
    rw [← hx, ← delimiterStep_receive hr, ← receiveByte_delimiter hpowered]
    rfl
  have hchecks := r.close_eq
  refine ⟨fun hbad => ?_, fun hgood hlong => ?_, fun hgood hfits => ?_⟩
  · exact hclose (x := .checkFailure) (hchecks.trans (if_pos hbad))
  · exact hclose (x := .surplus) (hchecks.trans ((if_neg hgood).trans (if_pos hlong)))
  · exact hclose (x := .accepted f) (hchecks.trans ((if_neg hgood).trans (if_neg (Nat.not_lt.2 hfits))))

/-! ### Framing against reception (R99, R186) -/

/-- A reception with content bytes stored. -/
def Reception.store (r : Reception) (bs : List Byte) : Reception :=
  { r with content := r.content ++ bs, count := r.count + bs.length }

theorem escapeOne_ne_delimiter {c : Byte} (h : c ∈ escapeOne b) : c ≠ delimiterByte := by
  unfold escapeOne at h
  split at h
  · rcases List.mem_pair.1 h with rfl | rfl <;> decide
  · next hb =>
    split at h
    · rcases List.mem_pair.1 h with rfl | rfl <;> decide
    · rw [List.mem_singleton.1 h]
      exact hb

/-- A byte in RECEIVE that keeps within the limit (R90, R94). -/
theorem receiveByte_receive (hpowered : s.powered = true) (hb : b ≠ delimiterByte) (hr : s.tp.receiver = .receive r)
    (hcount : (r.take b).count ≤ 60) : s.receiveByte b = s.setReceiver (.receive (r.take b)) := by
  rw [receiveByte_content hpowered hb, contentStep_receive hr, if_neg (Nat.not_lt.2 hcount)]

/-- The escaped form of one byte is received as that byte (R186). -/
theorem receive_escapeOne (hpowered : s.powered = true) (hr : s.tp.receiver = .receive r) (hesc : r.escaped = false)
    (hcount : r.count + 1 ≤ 60) : (escapeOne b).foldl State.receiveByte s = s.setReceiver (.receive (r.store [b])) := by
  have hpair {c d : Byte} (hd : d ≠ delimiterByte) (hc : unescape d = some c) :
      [escapeByte, d].foldl State.receiveByte s = s.setReceiver (.receive (r.store [c])) := by
    have hfirst := Reception.take_escape hesc
    have hopened := receiveByte_receive (b := escapeByte) hpowered (by decide) hr (by rw [hfirst]; exact hcount)
    rw [hfirst] at hopened
    have hsecond := Reception.take_pair (r := { r with count := r.count + 1, escaped := true }) rfl hc
    have hclosed := receiveByte_receive (s := s.setReceiver (.receive { r with count := r.count + 1, escaped := true })) hpowered hd
      rfl (by rw [hsecond]; exact hcount)
    rw [List.foldl_cons, List.foldl_cons, List.foldl_nil, hopened, hclosed, hsecond]
    obtain ⟨content, count, escaped, broken⟩ := r
    cases hesc
    rfl
  unfold escapeOne
  split
  · next hb => exact hpair (by decide) (by rw [hb]; rfl)
  · next hdelim =>
    split
    · next hb => exact hpair (by decide) (by rw [hb]; rfl)
    · next hplain =>
      have htake := Reception.take_plain hesc hplain
      rw [List.foldl_cons, List.foldl_nil, receiveByte_receive hpowered hdelim hr (by rw [htake]; exact hcount), htake]
      rfl

/-- Escaped bytes are received as those bytes (R186). -/
theorem receive_escaped (bs : List Byte) (s : State) (r : Reception) (hpowered : s.powered = true)
    (hr : s.tp.receiver = .receive r) (hesc : r.escaped = false) (hcount : r.count + bs.length ≤ 60) :
    (bs.flatMap escapeOne).foldl State.receiveByte s = s.setReceiver (.receive (r.store bs)) := by
  induction bs generalizing s r with
  | nil =>
    have hsame : r.store [] = r := by simp [Reception.store]
    rw [hsame, ← hr]
    rfl
  | cons b bs ih =>
    rw [List.length_cons] at hcount
    rw [List.flatMap_cons, List.foldl_append, receive_escapeOne hpowered hr hesc (by omega),
      ih (s.setReceiver (.receive (r.store [b]))) (r.store [b]) hpowered rfl hesc (by simp [Reception.store]; omega)]
    have hstore : (r.store [b]).store bs = r.store (b :: bs) := by simp [Reception.store, Nat.add_assoc, Nat.add_comm]
    rw [hstore]
    rfl

/-- The first content byte begins a frame as if an empty one had been in reception (R91). -/
theorem receiveByte_open (hpowered : s.powered = true) (hb : b ≠ delimiterByte) (hr : s.tp.receiver = .open)
    (hfree : s.tp.queue.length < 16) : s.receiveByte b = (s.setReceiver (.receive .empty)).receiveByte b := by
  have hcount : (Reception.empty.take b).count ≤ 60 := by rw [Reception.empty_take]; exact (by decide : 1 ≤ 60)
  rw [receiveByte_content hpowered hb, contentStep_open hr, if_pos hfree,
    receiveByte_receive (s := s.setReceiver (.receive .empty)) hpowered hb rfl hcount]
  rfl

theorem receive_escaped_open {bs : List Byte} (hpowered : s.powered = true) (hr : s.tp.receiver = .open)
    (hfree : s.tp.queue.length < 16) (hbs : bs ≠ []) (hcount : bs.length ≤ 60) :
    (bs.flatMap escapeOne).foldl State.receiveByte s = s.setReceiver (.receive (Reception.empty.store bs)) := by
  have hrest := receive_escaped bs (s.setReceiver (.receive .empty)) .empty hpowered rfl rfl
    (by simpa [Reception.empty] using hcount)
  cases hwire : bs.flatMap escapeOne with
  | nil =>
    obtain ⟨b, bs, rfl⟩ := List.exists_cons_of_ne_nil hbs
    have : escapeOne b = [] := List.flatMap_eq_nil_iff.1 hwire b List.mem_cons_self
    unfold escapeOne at this
    split at this
    · cases this
    · split at this <;> cases this
  | cons c cs =>
    have hc : c ≠ delimiterByte := by
      obtain ⟨b, -, hmem⟩ := List.mem_flatMap.1 (hwire ▸ List.mem_cons_self : c ∈ bs.flatMap escapeOne)
      exact escapeOne_ne_delimiter hmem
    rw [List.foldl_cons, receiveByte_open hpowered hc hr hfree, ← List.foldl_cons, ← hwire, hrest]
    rfl

theorem length_beBytes (w v : Nat) : (beBytes w v).length = w := by
  induction w with
  | zero => rfl
  | succ w ih => rw [beBytes, List.length_cons, ih]

/-- Content that a sender has checked closes as the frame sent (R95, R99). -/
theorem close_checked {body crc : List Byte} (hcrc : crc = beBytes 4 (crc32 body).toNat) (hlong : 8 ≤ body.length)
    (hstated : body.length - 8 ≤ (RxFrame.mk (body.take 8) (body.drop 8)).statedLength) :
    (Reception.empty.store (body ++ crc)).close = .accepted ⟨body.take 8, body.drop 8⟩ := by
  have hfour : crc.length = 4 := by rw [hcrc, length_beBytes]
  have hbody : (body ++ crc).take ((body ++ crc).length - 4) = body := by simp [hfour]
  have htail : (body ++ crc).drop ((body ++ crc).length - 4) = crc := by simp [hfour]
  have hlength : (body ++ crc).length = body.length + 4 := by rw [List.length_append, hfour]
  have hchecks := (Reception.empty.store (body ++ crc)).close_eq
  have hcontent : (Reception.empty.store (body ++ crc)).content = body ++ crc := rfl
  rw [hcontent] at hchecks
  dsimp only at hchecks
  rw [hbody, htail] at hchecks
  rw [hchecks, if_neg, if_neg]
  · rw [hlength]
    omega
  · simp only [Reception.store, Reception.empty, Bool.false_eq_true, false_or, not_or, ne_eq, not_not]
    exact ⟨by omega, hcrc⟩

/-- Settles O18: the opening delimiter opens, the escaped content is received byte by byte, and the close finds frame and check. -/
theorem framedBytesAreReceived : Obligations.FramedBytesAreReceived := by
  intro s header payload hpowered hidle hfree hheader hlong hstated
  have hbody : (header ++ payload).take 8 = header ∧ (header ++ payload).drop 8 = payload := by simp [← hheader]
  generalize hcrc : beBytes 4 (crc32 (header ++ payload)).toNat = crc
  have hfour : crc.length = 4 := by rw [← hcrc, length_beBytes]
  have hclose : (Reception.empty.store (header ++ payload ++ crc)).close = .accepted ⟨header, payload⟩ := by
    have h := close_checked (body := header ++ payload) hcrc.symm (by simp [hheader])
    rw [hbody.1, hbody.2] at h
    exact h (by simpa [hheader] using hstated)
  have hcontent := receive_escaped_open (s := s.setReceiver .open) (bs := header ++ payload ++ crc) hpowered rfl hfree
    (by intro h; simp [← List.length_eq_zero_iff, hheader] at h) (by simp [hheader, hfour]; omega)
  unfold wireFrame
  rw [hcrc, List.foldl_cons, receiveByte_delimiter hpowered, delimiterStep_idle hidle, List.foldl_append, hcontent,
    List.foldl_cons, List.foldl_nil, receiveByte_delimiter (by exact hpowered), delimiterStep_receive rfl, hclose]
  rfl

/-! ### The transmitter (R98 to R100) -/

theorem takeRecord_holder {r : Report} (h : s.ru.holder = some r) :
    s.takeRecord = { s with ru := { s.ru with holder := none } }.send r := by
  simp only [State.takeRecord, h]

theorem takeRecord_queue {r : Report} {rest : List Report} (hholder : s.ru.holder = none) (h : s.ru.queue = r :: rest) :
    s.takeRecord = { s with ru := { s.ru with queue := rest } }.send r := by
  simp only [State.takeRecord, hholder, h]

theorem takeRecord_none (hholder : s.ru.holder = none) (h : s.ru.queue = []) : s.takeRecord = s := by
  simp only [State.takeRecord, hholder, h]

theorem exec_transmitTake_idle (hpowered : s.powered = true) (hidle : s.tp.transmitter = .idle) :
    exec (.transmitTake true) s = .next s.takeRecord := by
  simp only [exec, execTransmitTake, hidle, hpowered, Bool.and_self, if_true]

/-- Settles O19: the choice of the record in IDLE, and nothing but the frame's end out of SENDING. -/
theorem transmitterTakesHolderFirst : Obligations.TransmitterTakesHolderFirst := by
  intro s source
  have hsource (r : Report) : source r = r.source s.fp.idInEffect := by
    unfold source Report.source
    cases r.body <;> rfl
  refine ⟨fun hpowered hidle => ⟨fun r h => ?_, fun r rest hholder h => ?_, fun hholder h => ?_, ?_⟩,
    fun r wire ready h => ⟨?_, rfl⟩⟩
  · rw [exec_transmitTake_idle hpowered hidle, takeRecord_holder h, hsource]
    rfl
  · rw [exec_transmitTake_idle hpowered hidle, takeRecord_queue hholder h, hsource]
    rfl
  · rw [exec_transmitTake_idle hpowered hidle, takeRecord_none hholder h]
  · simp only [exec, execTransmitTake, hidle, Bool.and_false, Bool.false_eq_true, if_false]
  · simp only [exec, execTransmitTake, h]

end Sys2Proof.Machine
end

section
/-!
The Frame Classifier (04): the stages HEADER, DISPOSITION, AUTHORITY and TARGET, the LENGTH check of every handler, and
LOAD_DISPOSITION.
-/

namespace Sys2Proof.Machine

variable {s t : State} {f : RxFrame} {rest : List RxFrame} {e : Entry} {c : Instr} {h : Handler}

/-! ### HEADER and DISPOSITION (R78, R79) -/

theorem screen_foreign (hdest : ¬ (f.destination = s.fp.idInEffect ∨ f.destination = 65535)) : screen f s = .foreign :=
  if_pos (not_or.1 hdest)

theorem screen_length (hdest : f.destination = s.fp.idInEffect ∨ f.destination = 65535)
    (hlength : ¬ (f.statedLength = f.payload.length ∧ f.statedLength ≤ 48)) :
    screen f s = .refused (refusalRecord f .header .headerLength .none f.payload.length) := by
  have hbad : f.statedLength ≠ f.count ∨ 48 < f.statedLength := by
    unfold RxFrame.count
    omega
  exact (if_neg (by tauto)).trans (if_pos hbad)

/-- A frame for the node whose length agrees, by its slot index and its class (R78, R79). -/
theorem screen_sized (hdest : f.destination = s.fp.idInEffect ∨ f.destination = 65535)
    (hlength : f.statedLength = f.payload.length ∧ f.statedLength ≤ 48) : screen f s =
      if 384 < f.slot then .refused (refusalRecord f .header .slotRange .none f.slot)
      else
        match if f.cls < s.ret.limit then s.entry f.cls else none with
        | none => .refused (refusalRecord f .disposition .noDisposition .disposition f.cls)
        | some e =>
          if e.ceiling < f.authority then .refusedBy e.mode (refusalRecord f .authority .noReason .disposition f.cls)
          else
            match targetCheck e.handler f s with
            | some r => .refusedBy e.mode (refusalRecord f .target r .account f.slot)
            | none => .passed e := by
  have hgood : ¬ (f.statedLength ≠ f.count ∨ 48 < f.statedLength) := by
    unfold RxFrame.count
    omega
  exact (if_neg (by tauto)).trans (if_neg hgood)

theorem screen_absent (hdest : f.destination = s.fp.idInEffect ∨ f.destination = 65535)
    (hlength : f.statedLength = f.payload.length ∧ f.statedLength ≤ 48) (hslot : f.slot ≤ 384)
    (habsent : s.ret.limit ≤ f.cls ∨ s.entry f.cls = none) :
    screen f s = .refused (refusalRecord f .disposition .noDisposition .disposition f.cls) := by
  have hentry : (if f.cls < s.ret.limit then s.entry f.cls else none) = none := by
    split
    · next hlt => exact habsent.resolve_left (Nat.not_le.2 hlt)
    · rfl
  rw [screen_sized hdest hlength, if_neg (Nat.not_lt.2 hslot), hentry]

/-- A frame of a present entry, by its authority and its target (R80, R81). -/
theorem screen_present (hdest : f.destination = s.fp.idInEffect ∨ f.destination = 65535)
    (hlength : f.statedLength = f.payload.length ∧ f.statedLength ≤ 48) (hslot : f.slot ≤ 384)
    (hcls : f.cls < s.ret.limit) (hentry : s.entry f.cls = some e) : screen f s =
      if e.ceiling < f.authority then .refusedBy e.mode (refusalRecord f .authority .noReason .disposition f.cls)
      else
        match targetCheck e.handler f s with
        | some r => .refusedBy e.mode (refusalRecord f .target r .account f.slot)
        | none => .passed e := by
  rw [screen_sized hdest hlength, if_neg (Nat.not_lt.2 hslot), if_pos hcls, hentry]

/-- FRAME_TAKEN on a frame that does not pass HEADER and DISPOSITION. -/
theorem exec_frameTaken_foreign (hpowered : s.powered = true) (hfront : s.tp.queue = f :: rest) (hscreen : screen f s = .foreign) :
    exec .frameTaken s = .next ((s.setRxQueue rest).bump .foreignTrunk) := by
  have hadmits : namesNothing f s = true := by simp only [namesNothing, hscreen]
  refine congrArg Host.Outcome.next ((takeFrame_of_admits hpowered hfront hadmits).trans ?_)
  simp only [classify, screen_setRxQueue, hscreen]

theorem exec_frameTaken_refused {r : Report} (hpowered : s.powered = true) (hfront : s.tp.queue = f :: rest)
    (hscreen : screen f s = .refused r) : exec .frameTaken s = .next ((s.setRxQueue rest).hand r) := by
  have hadmits : namesNothing f s = true := by simp only [namesNothing, hscreen]
  refine congrArg Host.Outcome.next ((takeFrame_of_admits hpowered hfront hadmits).trans ?_)
  simp only [classify, screen_setRxQueue, hscreen]

/-- Whether an admitted frame's entry names a handler. -/
theorem Admitted.namesHandler_eq (ha : Admitted s f rest e) (k : Handler) :
    namesHandler k f (s.setRxQueue rest) = (e.handler == k) := by
  have hentry : (s.setRxQueue rest).entry f.cls = some e := entry_of_screen_passed ha.passed
  simp only [namesHandler, hentry]

theorem actUnknown_nodeControl {mode : ReportMode} (hh : namesHandler .setAccountState f s = false) :
    actUnknown mode f s = reject .subcommand .none 0 := by
  simp [actUnknown, hh]

theorem actUnknown_setAccountState {mode : ReportMode} (hh : namesHandler .setAccountState f s = true) :
    actUnknown mode f s = if f.count ≠ 6 then rejectLength else reject .subcommand .account f.slot := by
  simp [actUnknown, hh]

/-- Settles O20: the first two stages in order, then the frames without a known subcommand. -/
theorem unhandledFramesDroppedOrRefused : Obligations.UnhandledFramesDroppedOrRefused := by
  intro s f rest hpowered hfront u forUs lengthOk
  refine ⟨fun hdest => ?_, fun hdest hlength => ?_, fun hdest hlength hslot => ?_, fun hdest hlength hslot habsent => ?_,
    fun e h => ⟨fun hh => ?_, fun hh hc => ?_, fun hh hc => ?_⟩⟩
  · exact exec_frameTaken_foreign hpowered hfront (screen_foreign hdest)
  · exact exec_frameTaken_refused hpowered hfront (screen_length hdest hlength)
  · exact exec_frameTaken_refused hpowered hfront ((screen_sized hdest hlength).trans (if_pos hslot))
  · exact exec_frameTaken_refused hpowered hfront (screen_absent hdest hlength hslot habsent)
  · have hother : namesHandler .setAccountState f u = false := by rw [h.namesHandler_eq, hh]; rfl
    exact h.exec_reject (actUnknown_nodeControl (mode := e.mode) hother)
  all_goals
    have hown : namesHandler .setAccountState f u = true := by rw [h.namesHandler_eq, hh]; rfl
    have hact := actUnknown_setAccountState (mode := e.mode) hown
  · exact h.exec_reject (hact.trans (if_pos hc))
  · exact h.exec_reject (hact.trans (if_neg (not_not.2 hc)))

/-! ### AUTHORITY and TARGET (R80 to R82, R88) -/

theorem slotFits_iff (hslot : f.slot ≤ 384) : slotFits h f.slot = true ↔
    match h.target with
    | .node => f.slot = 0
    | .account => 1 ≤ f.slot
    | .nodeOrAccount | .any => True := by
  unfold slotFits
  cases h.target <;> simp [hslot]

theorem namesAccount_iff : namesAccount h f.slot = true ↔ h.target = .account ∨ h.target = .nodeOrAccount ∧ 1 ≤ f.slot := by
  unfold namesAccount
  cases h.target <;> simp [Nat.one_le_iff_ne_zero]

theorem targetCheck_slotKind (hfits : ¬ slotFits h f.slot = true) : targetCheck h f s = some .slotKind := by
  simp [targetCheck, hfits]

theorem targetCheck_broadcast (hfits : slotFits h f.slot = true) (hnames : namesAccount h f.slot = true)
    (hdest : f.destination = 65535) : targetCheck h f s = some .broadcastAccount := by
  simp [targetCheck, hfits, hnames, hdest]

/-- The checks on the account that a frame names (R82). -/
theorem targetCheck_account (hfits : slotFits h f.slot = true) (hnames : namesAccount h f.slot = true)
    (hdest : f.destination ≠ 65535) : targetCheck h f s =
      if h = .loadAccount then (if (s.account f.slot).isSome then some .accountPresent else none)
      else
        match s.account f.slot with
        | none => some .accountEmpty
        | some a => if f.count < 4 then some .noKitId else if f.kitId ≠ a.kitId then some .kitMismatch else none := by
  unfold targetCheck
  simp only [hfits, hnames, hdest, Bool.not_true, Bool.false_eq_true, if_false]
  cases s.account f.slot <;> cases h <;> simp

/-- An admitted frame of an account handler but LOAD_ACCOUNT names an account that is present (R82). -/
theorem Admitted.account (ha : Admitted s f rest e) (htarget : e.handler.target = .account) (hload : e.handler ≠ .loadAccount) :
    ∃ a, s.account f.slot = some a := by
  have hcheck := targetCheck_of_screen_passed ha.passed
  have hnames : namesAccount e.handler f.slot = true := namesAccount_iff.2 (.inl htarget)
  have hfits : slotFits e.handler f.slot = true := by
    by_contra hfits
    rw [targetCheck_slotKind hfits] at hcheck
    cases hcheck
  have hdest : f.destination ≠ 65535 := by
    intro hdest
    rw [targetCheck_broadcast hfits hnames hdest] at hcheck
    cases hcheck
  rw [targetCheck_account hfits hnames hdest, if_neg hload] at hcheck
  cases hs : s.account f.slot with
  | none =>
    rw [hs] at hcheck
    cases hcheck
  | some a => exact ⟨a, rfl⟩

/-- Settles O21: the report modes, then the checks of the two stages in order. -/
theorem authorityAndTargetRefuse : Obligations.AuthorityAndTargetRefuse := by
  refine ⟨fun u e f record r t i => ⟨fun hmode => ?_, fun hmode => ?_⟩, ?_⟩
  · rcases hmode with hmode | hmode <;> simp only [State.refuse, State.handRefusal, hmode, and_self]
  · simp only [State.refuse, State.handRefusal, hmode, and_self]
  intro s f rest e hpowered hfront hdest hlength hmax hslot hcls hentry refused target fits naming
  have hscreen := screen_present hdest ⟨hlength, hmax⟩ hslot hcls hentry
  have hrefused {stage : Stage} {r : Reason} {tab : TableId} {i : Nat}
      (h : screen f s = .refusedBy e.mode (refusalRecord f stage r tab i)) : refused stage r tab i := by
    have hexec := exec_refusedBy hpowered hfront hentry h
    refine ⟨fun hmode => hexec.trans ?_, fun hmode => hexec.trans ?_⟩
    · rcases hmode with hmode | hmode <;> simp only [State.handRefusal, hmode]
    · simp only [State.handRefusal, hmode]
  have htarget {r : Reason} (hauthority : f.authority ≤ e.ceiling) (h : targetCheck e.handler f s = some r) : target r := by
    refine hrefused (hscreen.trans ?_)
    rw [if_neg (Nat.not_lt.2 hauthority), h]
  have hfits : slotFits e.handler f.slot = true ↔ fits := slotFits_iff hslot
  refine ⟨fun hweak => hrefused (hscreen.trans (if_pos hweak)), fun hauthority hbad => ?_,
    fun hauthority hgood hnames hall => ?_, fun hauthority hgood hnames hone => ?_⟩
  · exact htarget hauthority (targetCheck_slotKind (mt hfits.1 hbad))
  · exact htarget hauthority (targetCheck_broadcast (hfits.2 hgood) (namesAccount_iff.2 hnames) hall)
  have hcheck := targetCheck_account (s := s) (hfits.2 hgood) (namesAccount_iff.2 hnames) hone
  refine ⟨fun hload hpresent => ?_, fun hload hempty => ?_, fun a hload ha => ⟨fun hshort => ?_, fun hlong hkit => ?_⟩⟩
  · exact htarget hauthority (by rw [hcheck, if_pos hload, if_pos hpresent])
  · exact htarget hauthority (by rw [hcheck, if_neg hload, hempty])
  · exact htarget hauthority (by rw [hcheck, if_neg hload, ha]; exact if_pos hshort)
  · exact htarget hauthority (by rw [hcheck, if_neg hload, ha]; exact (if_neg (Nat.not_lt.2 hlong)).trans (if_pos hkit))

/-! ### LENGTH (R83, R188) -/

/-- The figures that a handler's LENGTH refusal carries (R32, R40). -/
def lengthFigures (h : Handler) (a : Option Account) : Option AccountFigures :=
  match h with
  | .applyVoucher => a.map fun a => ⟨a.balance, a.allowance, a.arrears, a.window.map Window.h⟩
  | .adjustCredit => a.map fun a => ⟨a.balance, a.allowance, a.arrears, none⟩
  | _ => none

/-- A NODE_CONTROL payload that fits no layout of its subcommand is refused LENGTH by the subcommand (R178). -/
theorem nodeCommand_length {k : NodeCommand} {mode : ReportMode} (hcmd : f.nodeCommand = some k)
    (hfit : layoutFits .nodeControl f = false) :
    handlerActionOf (commandFor .nodeControl f) mode f s = .error ⟨.length, .none, 0, none⟩ := by
  cases k <;> simp [layoutFits, hcmd] at hfit <;> simp only [commandFor, hcmd, handlerActionOf]
  case setIdentity => simp [actSetIdentity, hfit, rejectLength, reject]
  case setConfig => simp [actSetConfig, hfit, rejectLength, reject]
  case resetNode => simp [actResetNode, hfit, rejectLength, reject]
  case setCycle => simp [actSetCycle, hfit, rejectLength, reject]
  case setMode => simp [actSetMode, hfit, rejectLength, reject]
  case fieldReset => simp [actFieldReset, hfit, rejectLength, reject]
  case clearEscalation => simp [actClearEscalation, hfit, rejectLength, reject]
  case setAlarmMask => simp [actSetAlarmMask, hfit, rejectLength, reject]
  case readStatus =>
    have hcopy : ¬ (f.count = 2 ∧ byteAt f.payload 1 = 0) := fun h => hfit.1 h.1 h.2
    have hclear : ¬ (f.count = 5 ∧ byteAt f.payload 1 = 1) := fun h => hfit.2 h.1 h.2
    simp [actReadStatus, hcopy, hclear, rejectLength, reject]

/-- A SET_ACCOUNT_STATE payload that fits no layout is refused LENGTH, with or without a known subcommand (R83). -/
theorem accountCommand_length {mode : ReportMode} (hnames : namesHandler .setAccountState f s = true)
    (hfit : layoutFits .setAccountState f = false) :
    handlerActionOf (commandFor .setAccountState f) mode f s = .error ⟨.length, .none, 0, none⟩ := by
  cases hcmd : f.accountCommand with
  | none =>
    simp [layoutFits, hcmd] at hfit
    simp [commandFor, hcmd, handlerActionOf, actUnknown, hnames, hfit, rejectLength, reject]
  | some k =>
    cases k <;> simp [layoutFits, hcmd] at hfit <;> simp only [commandFor, hcmd, handlerActionOf]
    case suspend => simp [actSuspend, hfit, rejectLength, reject]
    case resume => simp [actResume, hfit, rejectLength, reject]
    case changePlan => simp [actChangePlan, hfit, rejectLength, reject]
    case clearQuarantine =>
      have hbad : f.count ≠ 6 ∨ 1 < f.stateArgument := by
        unfold RxFrame.stateArgument
        omega
      simp [actClearQuarantine, hbad, rejectLength, reject]

/-- A payload that fits no layout of its handler is refused LENGTH by the handler (R83). -/
theorem Takes.handler_length (h : Takes c s f rest e) (hfit : layoutFits e.handler f = false) :
    handlerActionOf c e.mode f (s.setRxQueue rest) =
      .error ⟨.length, .none, 0, lengthFigures e.handler (s.account f.slot)⟩ := by
  obtain ⟨hadm, rfl⟩ := h
  cases hh : e.handler <;> rw [hh] at hfit
  case nodeControl =>
    cases hcmd : f.nodeCommand with
    | none => simp [layoutFits, hcmd] at hfit
    | some k => exact nodeCommand_length hcmd hfit
  case setAccountState => exact accountCommand_length (by rw [hadm.namesHandler_eq, hh]; rfl) hfit
  case applyVoucher =>
    obtain ⟨a, ha⟩ := hadm.account (by rw [hh]; rfl) (by rw [hh]; decide)
    have hu : (s.setRxQueue rest).account f.slot = some a := ha
    simp [layoutFits] at hfit
    simp [commandFor, handlerActionOf, actApplyVoucher, withAccount, hu, ha, hfit, rejectLengthWith, lengthFigures, Account.figures]
  case adjustCredit =>
    obtain ⟨a, ha⟩ := hadm.account (by rw [hh]; rfl) (by rw [hh]; decide)
    have hu : (s.setRxQueue rest).account f.slot = some a := ha
    simp [layoutFits] at hfit
    simp [commandFor, handlerActionOf, actAdjustCredit, withAccount, hu, ha, hfit, rejectLengthWith, lengthFigures, Account.figures]
  case relayToKit | discard => simp [layoutFits] at hfit
  all_goals
    refine Eq.trans ?_ (rfl : (rejectLength : Except Reject State) = _)
    simp only [commandFor, handlerActionOf]
  case loadDisposition =>
    refine if_pos ?_
    simp [layoutFits] at hfit
    omega
  case setTime =>
    refine if_pos ?_
    simp [layoutFits] at hfit
    omega
  case readAccount =>
    refine if_pos ?_
    simp [layoutFits] at hfit
    omega
  case readCounters =>
    unfold actReadCounters
    by_cases hslot : f.slot = 0
    · simp [layoutFits, hslot] at hfit
      refine (if_pos hslot).trans (if_pos ?_)
      omega
    · simp [layoutFits, hslot] at hfit
      refine (if_neg hslot).trans (if_pos ?_)
      omega
  all_goals
    refine if_pos ?_
    simpa [layoutFits] using hfit

theorem actDiscard_eq (mode : ReportMode) (f : RxFrame) (s : State) :
    actDiscard mode f s = .ok (s.handReceipt mode f.tag f.slot (.discard f.cls f.count)) := rfl

/-- Settles O22: the LENGTH check handler by handler; DISCARD has none. -/
theorem lengthCheckedButByDiscard : Obligations.LengthCheckedButByDiscard := by
  intro s f rest e u figures
  have hfigures : figures = lengthFigures e.handler (s.account f.slot) := by
    unfold figures lengthFigures
    cases e.handler <;> rfl
  refine ⟨fun c h hfit => ?_, fun h => ⟨fun hmode => ?_, fun hmode => ?_⟩⟩
  · rw [hfigures]
    exact h.exec_error (h.handler_length hfit)
  all_goals refine (h.exec_ok (actDiscard_eq e.mode f u)).trans (congrArg _ ?_)
  · simp only [State.handReceipt, hmode]
  · cases hm : e.mode with
    | all => exact absurd hm hmode
    | refusalsOnly | silent => rfl

/-! ### LOAD_DISPOSITION (R75, R76) -/

theorem handlerOfCode_none {n : Nat} : Handler.ofCode n = none ↔ 15 < n := by
  refine ⟨fun hnone => ?_, fun hn => ?_⟩
  · by_contra hle
    exact (by decide : ∀ k < 16, Handler.ofCode k ≠ none) n (by omega) hnone
  · obtain ⟨k, rfl⟩ := Nat.exists_eq_add_of_lt hn
    rw [Nat.add_right_comm, Nat.add_comm]
    rfl

theorem reportModeOfCode_none {n : Nat} : ReportMode.ofCode n = none ↔ n = 0 ∨ 3 < n := by
  refine ⟨fun hnone => ?_, fun hn => ?_⟩
  · by_contra hle
    exact (by decide : ∀ k < 4, k ≠ 0 → ReportMode.ofCode k ≠ none) n (by omega) (by omega) hnone
  · rcases hn with rfl | hn
    · rfl
    · obtain ⟨k, rfl⟩ := Nat.exists_eq_add_of_lt hn
      rw [Nat.add_right_comm, Nat.add_comm]
      rfl

/-- The handlers of codes 0 and 1 are those whose ceiling the table guards (R73, R75). -/
theorem handlerOfCode_control {n : Nat} (hn : Handler.ofCode n = some h) :
    (h = .nodeControl ∨ h = .loadDisposition) ↔ n = 0 ∨ n = 1 := by
  unfold Handler.ofCode at hn
  split at hn <;> simp at hn <;> subst hn <;> simp

/-- The checks on the class, the entry and the limit of a frame that fits the layout (R75). -/
theorem actLoadDisposition_checks (mode : ReportMode) (s : State) (hc : f.count = 5 ∨ f.count = 6)
    (hp : byteAt f.payload 1 ≤ 1) : actLoadDisposition mode f s =
      if 63 < byteAt f.payload 0 then reject .classRange .disposition (byteAt f.payload 0)
      else if ((s.entry (byteAt f.payload 0)).map Entry.fixed).getD false then
        reject .fixedEntry .disposition (byteAt f.payload 0)
      else if byteAt f.payload 1 = 1 ∧ (writtenEntry f.payload).isNone then
        reject .entryFields .disposition (byteAt f.payload 0)
      else if ((writtenEntry f.payload).map Entry.weakensControl).getD false then
        reject .controlCeiling .disposition (byteAt f.payload 0)
      else if (f.namedLimit.map fun l => decide (l < 4 ∨ 64 < l)).getD false then
        reject .limitRange .disposition (f.namedLimit.getD 0)
      else .ok ((s.writeDisposition (byteAt f.payload 0) (writtenEntry f.payload) f.namedLimit).handReceipt mode f.tag f.slot
        (.loadDisposition (byteAt f.payload 0) (writtenEntry f.payload) (f.namedLimit.getD s.ret.limit))) := by
  have hfits : ¬ ((f.count ≠ 5 ∧ f.count ≠ 6) ∨ 1 < byteAt f.payload 1) := by omega
  exact if_neg hfits

theorem fixed_iff {cls : Nat} : ((s.entry cls).map Entry.fixed).getD false = true ↔ ∃ x, s.entry cls = some x ∧ x.fixed = true := by
  cases s.entry cls <;> simp

theorem limitBad_iff : (f.namedLimit.map fun l => decide (l < 4 ∨ 64 < l)).getD false = true ↔
    f.count = 6 ∧ (byteAt f.payload 5 < 4 ∨ 64 < byteAt f.payload 5) := by
  unfold RxFrame.namedLimit
  split <;> simp_all

theorem namedLimit_getD (l : Nat) : f.namedLimit.getD l = if f.count = 6 then byteAt f.payload 5 else l := by
  unfold RxFrame.namedLimit
  split <;> rfl

/-- The write of entry and limit, the limit as the frame names it or as it stands (R76). -/
theorem writeDisposition_namedLimit (s : State) (cls : Nat) (x : Option Entry) : s.writeDisposition cls x f.namedLimit =
    { s with ret := { s.ret with
      entries := s.ret.entries.setIfInBounds cls x
      limit := if f.count = 6 then byteAt f.payload 5 else s.ret.limit } } := by
  rw [← namedLimit_getD]
  rfl

/-- An entry whose fields are out of range is none (R75 check 4). -/
theorem namedEntry_none {p : List Byte} (hbad : 15 < byteAt p 2 ∨ 3 < byteAt p 3 ∨ byteAt p 4 = 0 ∨ 3 < byteAt p 4) :
    namedEntry p = none := by
  unfold namedEntry
  split
  · next h m hh hm =>
    have hhandler : ¬ 15 < byteAt p 2 := fun h => by rw [handlerOfCode_none.2 h] at hh; cases hh
    have hmode : ¬ (byteAt p 4 = 0 ∨ 3 < byteAt p 4) := fun h => by rw [reportModeOfCode_none.2 h] at hm; cases hm
    exact if_neg (by omega)
  · rfl

/-- An entry whose fields are in range (R75 check 4). -/
theorem namedEntry_some {p : List Byte} (hgood : ¬ (15 < byteAt p 2 ∨ 3 < byteAt p 3 ∨ byteAt p 4 = 0 ∨ 3 < byteAt p 4)) :
    ∃ h m, Handler.ofCode (byteAt p 2) = some h ∧ ReportMode.ofCode (byteAt p 4) = some m ∧
      namedEntry p = some ⟨h, byteAt p 3, m, false⟩ := by
  obtain ⟨h, hh⟩ := Option.ne_none_iff_exists'.1 (mt handlerOfCode_none.1 (by omega) : Handler.ofCode (byteAt p 2) ≠ none)
  obtain ⟨m, hm⟩ := Option.ne_none_iff_exists'.1 (mt reportModeOfCode_none.1 (by omega) : ReportMode.ofCode (byteAt p 4) ≠ none)
  refine ⟨h, m, hh, hm, ?_⟩
  simp only [namedEntry, hh, hm]
  exact if_pos (by omega)

/-- The control ceiling's check reads the handler's code (R75 check 5). -/
theorem weakensControl_iff {n k : Nat} {m : ReportMode} (hn : Handler.ofCode n = some h) :
    Entry.weakensControl ⟨h, k, m, false⟩ = true ↔ (n = 0 ∨ n = 1) ∧ k ≠ 0 := by
  rw [← handlerOfCode_control hn]
  simp [Entry.weakensControl]

/-- Settles O23: the checks one after the other, then the write. -/
theorem loadDispositionChecksAndWrites : Obligations.LoadDispositionChecksAndWrites := by
  intro s f rest e h hc u p cls present isFixed fieldsBad weak limitBad limit refused written hpresent
  have hchecks := actLoadDisposition_checks e.mode u hc hpresent
  have hrefused {r : Reason} {i : Nat} (hact : actLoadDisposition e.mode f u = reject r .disposition i) : refused r i :=
    h.exec_reject hact
  have hfixed : ((u.entry cls).map Entry.fixed).getD false = true ↔ isFixed := fixed_iff
  have hlimit : (f.namedLimit.map fun l => decide (l < 4 ∨ 64 < l)).getD false = true ↔ limitBad := limitBad_iff
  have hpast (hcls : cls ≤ 63) (hfree : ¬ isFixed) : actLoadDisposition e.mode f u = _ :=
    hchecks.trans ((if_neg (Nat.not_lt.2 hcls)).trans (if_neg (mt hfixed.1 hfree)))
  have hset (hp : present = 1) : writtenEntry p = namedEntry p := if_pos hp
  have hclear (hp : present = 0) : writtenEntry p = none := if_neg (by omega)
  have hwritten {x : Option Entry} (hx : writtenEntry p = x) (hcls : cls ≤ 63) (hfree : ¬ isFixed) (hgood : ¬ limitBad)
      (hentry : ¬ (present = 1 ∧ x.isNone)) (hweak : ¬ (x.map Entry.weakensControl).getD false = true) : written x := by
    subst hx
    have hact := (hpast hcls hfree).trans ((if_neg hentry).trans ((if_neg hweak).trans (if_neg (mt hlimit.1 hgood))))
    have hexec := h.exec_ok hact
    rwa [writeDisposition_namedLimit, namedLimit_getD] at hexec
  refine ⟨fun hcls => ?_, fun hcls hfx => ?_, fun hcls hfree hp hbad => ?_, fun hcls hfree hp hgood hweak => ?_,
    fun hcls hfree hp hbad => ?_, fun hcls hfree hgood hp => ?_, fun hcls hfree hgood hp hfields hstrong => ?_⟩
  · exact hrefused (hchecks.trans (if_pos hcls))
  · exact hrefused (hchecks.trans ((if_neg (Nat.not_lt.2 hcls)).trans (if_pos (hfixed.2 hfx))))
  · have hnone : (writtenEntry p).isNone := by rw [hset hp, namedEntry_none hbad]; rfl
    exact hrefused ((hpast hcls hfree).trans (if_pos ⟨hp, hnone⟩))
  · obtain ⟨k, m, hk, -, hnamed⟩ := namedEntry_some hgood
    have hentry : writtenEntry p = some ⟨k, byteAt p 3, m, false⟩ := (hset hp).trans hnamed
    refine hrefused ((hpast hcls hfree).trans ((if_neg ?_).trans (if_pos ?_)))
    · simp [p, hentry]
    · rw [hentry]
      exact (weakensControl_iff hk).2 hweak
  · have hbad' : f.namedLimit.getD 0 = byteAt p 5 := (namedLimit_getD 0).trans (if_pos hbad.1)
    have hentry : ¬ (present = 1 ∧ (writtenEntry p).isNone) ∧ ¬ ((writtenEntry p).map Entry.weakensControl).getD false = true := by
      by_cases hone : present = 1
      · obtain ⟨hfields, hstrong⟩ := hp hone
        obtain ⟨k, m, hk, -, hnamed⟩ := namedEntry_some hfields
        rw [(hset hone).trans hnamed]
        exact ⟨by simp, fun hw => hstrong ((weakensControl_iff hk).1 hw)⟩
      · rw [hclear (by omega)]
        exact ⟨fun h => hone h.1, by simp⟩
    have hact := (hpast hcls hfree).trans ((if_neg hentry.1).trans ((if_neg hentry.2).trans (if_pos (hlimit.2 hbad))))
    rw [hbad'] at hact
    exact hrefused hact
  · exact hwritten (hclear hp) hcls hfree hgood (by omega) (by simp)
  · obtain ⟨k, m, hk, hm, hnamed⟩ := namedEntry_some hfields
    refine ⟨k, m, hk, hm, hwritten ((hset hp).trans hnamed) hcls hfree hgood (by simp) ?_⟩
    exact fun hw => hstrong ((weakensControl_iff hk).1 hw)

end Sys2Proof.Machine
end

section
/-!
Node Control (06, 10, 11) and the services of a kit's link (03, 09): the checks of each handler in order, then what it writes.
-/

namespace Sys2Proof.Machine

variable {s : State} {f : RxFrame} {rest : List RxFrame} {e : Entry}

/-! ### SET_IDENTITY, SET_CONFIG, SET_CYCLE, SET_MODE (R106, R117, R179, R180) -/

theorem actSetIdentity_checks (mode : ReportMode) (s : State) (hc : f.count = 4) : actSetIdentity mode f s =
    if field f.payload 1 2 = 0 ∨ field f.payload 1 2 = 65535 then reject .identityRange .none 0
    else if f.destination = 65535 then reject .identityBroadcast .none 0
    else .ok (({ s with ret := { s.ret with nodeId := field f.payload 1 2, rank := byteAt f.payload 3 } } : State).handReceipt
      mode f.tag f.slot (.setIdentity (field f.payload 1 2) (byteAt f.payload 3) s.fp.idInEffect s.fp.rankInEffect)) :=
  if_neg (not_not.2 hc)

theorem actSetConfig_checks (mode : ReportMode) (s : State) (hc : f.count = 5) :
    let c : NodeConfig := ⟨byteAt f.payload 1, byteAt f.payload 2, byteAt f.payload 3, byteAt f.payload 4⟩
    actSetConfig mode f s =
      if !c.inRange then reject .configFields .none 0
      else .ok (({ s with ret := { s.ret with config := c } } : State).handReceipt mode f.tag f.slot (.setConfig c)) :=
  if_neg (not_not.2 hc)

/-- The ranges of a configuration read from bytes (R180): a byte is at most 255. -/
theorem configInRange_iff (p : List Byte) :
    NodeConfig.inRange ⟨byteAt p 1, byteAt p 2, byteAt p 3, byteAt p 4⟩ = true ↔
      byteAt p 1 ≤ 6 ∧ 1 ≤ byteAt p 2 ∧ 8 ≤ byteAt p 3 ∧ 1 ≤ byteAt p 4 ∧ byteAt p 4 ≤ 16 := by
  have hsilence := byteAt_lt p 2
  have hbringup := byteAt_lt p 3
  simp only [NodeConfig.inRange, Bool.and_eq_true, decide_eq_true_eq]
  omega

/-- Settles O24: the checks of the two subcommands, then their writes. -/
theorem identityAndConfigWritten : Obligations.IdentityAndConfigWritten := by
  intro s f rest e u p
  constructor
  · intro h hc id
    have hchecks := actSetIdentity_checks e.mode u hc
    refine ⟨fun hrange => ?_, fun hzero hall hbroadcast => ?_, fun hzero hall hone => ?_⟩
    · exact h.exec_reject (hchecks.trans (if_pos hrange))
    · exact h.exec_reject (hchecks.trans ((if_neg (not_or.2 ⟨hzero, hall⟩)).trans (if_pos hbroadcast)))
    · exact h.exec_ok (hchecks.trans ((if_neg (not_or.2 ⟨hzero, hall⟩)).trans (if_neg hone)))
  · intro h hc ok c
    have hchecks := actSetConfig_checks e.mode u hc
    have hrange : (!c.inRange) = true ↔ ¬ ok := by
      rw [Bool.not_eq_true', ← Bool.not_eq_true]
      exact not_congr (configInRange_iff p)
    exact ⟨fun hbad => h.exec_reject (hchecks.trans (if_pos (hrange.2 hbad))),
      fun hok => h.exec_ok (hchecks.trans (if_neg fun hbad => hrange.1 hbad hok))⟩

theorem actSetCycle_checks (mode : ReportMode) (s : State) (hc : f.count = 8) :
    let c : CycleParams := ⟨field f.payload 1 2, byteAt f.payload 3, field f.payload 4 2, field f.payload 6 2⟩
    actSetCycle mode f s =
      if !c.inRange then reject .cycleFields .none 0
      else .ok (({ s with fp := { s.fp with shadow := some c } } : State).handReceipt mode f.tag f.slot
        (.setCycle c s.fp.cycle)) :=
  if_neg (not_not.2 hc)

theorem cycleInRange_iff (c : CycleParams) : c.inRange = true ↔
    100 ≤ c.slotLength ∧ c.slotLength ≤ 2000 ∧ c.slotLength % 10 = 0 ∧ 2 ≤ c.contentionCount ∧
      c.contentionCount ≤ 8 ∧ c.gap ≤ 3600 ∧ 20 ≤ c.replyWindow ∧ c.replyWindow ≤ 500 ∧ c.replyWindow % 10 = 0 ∧
      c.replyWindow < c.slotLength := by
  simp only [CycleParams.inRange, Bool.and_eq_true, decide_eq_true_eq]
  tauto

theorem actSetMode_some {mode : ReportMode} {m : Mode} (hc : f.count = 2) (hm : Mode.ofCode (byteAt f.payload 1) = some m) :
    actSetMode mode f s = .ok (({ s with ret := { s.ret with requested := m } } : State).handReceipt mode f.tag f.slot
      (.setMode m s.fp.effective)) := by
  simp [actSetMode, hc, hm]

theorem actSetMode_none {mode : ReportMode} (hc : f.count = 2) (hm : Mode.ofCode (byteAt f.payload 1) = none) :
    actSetMode mode f s = reject .modeCode .none 0 := by
  simp [actSetMode, hc, hm]

/-- Settles O25: the ranges of R105, then the shadow; the three mode codes, then any other. -/
theorem cycleAndModeRequested : Obligations.CycleAndModeRequested := by
  intro s f rest e u p
  constructor
  · intro h hc c ok
    have hchecks := actSetCycle_checks e.mode u hc
    have hrange : (!c.inRange) = true ↔ ¬ ok := by
      rw [Bool.not_eq_true', ← Bool.not_eq_true]
      exact not_congr (cycleInRange_iff c)
    exact ⟨fun hbad => h.exec_reject (hchecks.trans (if_pos (hrange.2 hbad))),
      fun hok => h.exec_ok (hchecks.trans (if_neg fun hbad => hrange.1 hbad hok))⟩
  · intro h hc applied
    have happlied {m : Mode} (hm : Mode.ofCode (byteAt p 1) = some m) : applied m :=
      h.exec_ok (actSetMode_some (mode := e.mode) (s := u) hc hm)
    refine ⟨fun hp => happlied (by rw [hp]; rfl), fun hp => happlied (by rw [hp]; rfl), fun hp => happlied (by rw [hp]; rfl),
      fun hp => h.exec_reject (actSetMode_none (mode := e.mode) (s := u) hc ?_)⟩
    change Mode.ofCode (byteAt p 1) = none
    unfold Mode.ofCode
    split <;> simp_all

/-! ### CLEAR_ESCALATION, SET_ALARM_MASK, READ_STATUS (R171, R174 to R176) -/

theorem actClearEscalation_checks (mode : ReportMode) (s : State) (hc : f.count = 1) : actClearEscalation mode f s =
    if s.ru.holder.isSome then reject .holderOccupied .none 0
    else .ok (({ s with ru := { s.ru with escalated := false } } : State).handReceipt mode f.tag f.slot
      (.clearEscalation s.ru.escalated)) :=
  if_neg (not_not.2 hc)

theorem actSetAlarmMask_checks (mode : ReportMode) (s : State) (hc : f.count = 3) : actSetAlarmMask mode f s =
    .ok (({ s with ru := { s.ru with mask := BitVec.ofNat 9 (field f.payload 1 2) } } : State).handReceipt mode f.tag f.slot
      (.setAlarmMask (BitVec.ofNat 9 (field f.payload 1 2)))) :=
  if_neg (not_not.2 hc)

/-- A field of two bytes that the payload holds (12). -/
theorem field_two {bs : List Byte} {i : Nat} (hi : i + 1 < bs.length) : field bs i 2 = byteAt bs i * 256 + byteAt bs (i + 1) := by
  have hdrop : (bs.drop i).take 2 = [bs[i], bs[i + 1]] := by
    rw [List.drop_eq_getElem_cons (by omega), List.drop_eq_getElem_cons hi]
    rfl
  simp [field, beNat, hdrop, byteAt, List.getD_eq_getElem?_getD, List.getElem?_eq_getElem (show i < bs.length by omega),
    List.getElem?_eq_getElem hi]

/-- Settles O27: the holder is read first, then the flag is cleared; the mask is written as received. -/
theorem escalationClearedAndMaskSet : Obligations.EscalationClearedAndMaskSet := by
  intro s f rest e u
  constructor
  · intro h hc
    have hchecks := actClearEscalation_checks e.mode u hc
    refine ⟨fun r hr => h.exec_reject (hchecks.trans (if_pos ?_)), fun hnone => h.exec_ok (hchecks.trans (if_neg ?_))⟩
    · exact Option.isSome_iff_exists.2 ⟨r, hr⟩
    · exact fun hsome => by rw [show u.ru.holder = none from hnone] at hsome; cases hsome
  · intro h hc m
    have hact := actSetAlarmMask_checks e.mode u hc
    have hlong : 1 + 1 < f.payload.length := by
      rw [show f.payload.length = 3 from hc]
      decide
    rw [field_two hlong] at hact
    exact h.exec_ok hact

/-- The frame of a handler of kind NODE names slot index 0 (R73, R81). -/
theorem Admitted.slot_node (ha : Admitted s f rest e) (htarget : e.handler.target = .node) : f.slot = 0 := by
  have hcheck := targetCheck_of_screen_passed ha.passed
  by_contra hslot
  have hfits : ¬ slotFits e.handler f.slot = true := by simpa [slotFits, htarget] using hslot
  rw [targetCheck_slotKind hfits] at hcheck
  cases hcheck

/-- The command of a NODE_CONTROL subcommand. -/
def nodeInstr : NodeCommand → Instr
  | .setIdentity => .setIdentity
  | .setConfig => .setConfig
  | .resetNode => .resetNode
  | .setCycle => .setCycle
  | .setMode => .setMode
  | .fieldReset => .fieldReset
  | .clearEscalation => .clearEscalation
  | .setAlarmMask => .setAlarmMask
  | .readStatus => .readStatus

/-- Only NODE_CONTROL's frames belong to the commands of its subcommands. -/
theorem handler_of_nodeInstr {h : Handler} {k : NodeCommand} (heq : commandFor h f = nodeInstr k) : h = .nodeControl := by
  cases h
  case nodeControl => rfl
  case setAccountState =>
    simp only [commandFor] at heq
    split at heq <;> cases k <;> cases heq
  all_goals cases k <;> cases heq

theorem actReadStatus_copy {mode : ReportMode} (hc : f.count = 2) (ho : byteAt f.payload 1 = 0) :
    actReadStatus mode f s = .ok (s.hand ⟨f.tag, f.slot, .nodeStatus s.status⟩) := if_pos ⟨hc, ho⟩

theorem actReadStatus_clear {mode : ReportMode} (hc : f.count = 5) (ho : byteAt f.payload 1 = 1) :
    actReadStatus mode f s =
      .ok ((s.clearStatus (BitVec.ofNat 9 (field f.payload 2 2)) (BitVec.ofNat 5 (byteAt f.payload 4))).hand
        ⟨f.tag, f.slot, .nodeStatus s.status⟩) :=
  (if_neg (by omega)).trans (if_pos ⟨hc, ho⟩)

/-- A tally is cleared by its bit of the mask (R176, 12). -/
theorem tallies_clear_eq (t : Tallies) (n : Nat) : t.clear (BitVec.ofNat 5 n) =
    ⟨if n.testBit 4 then 0 else t.receipt, if n.testBit 3 then 0 else t.refusal, if n.testBit 2 then 0 else t.reply,
      if n.testBit 1 then 0 else t.other, if n.testBit 0 then 0 else t.advisory⟩ := by
  simp only [Tallies.clear, BitVec.getLsbD_ofNat, Nat.reduceLT, decide_true, Bool.true_and]

/-- Settles O28: the reply is composed on the state before the clear; a status frame names slot index 0. -/
theorem readStatusCopiesThenClears : Obligations.ReadStatusCopiesThenClears := by
  intro s f rest e h u p reply
  have hnode : e.handler = .nodeControl := handler_of_nodeInstr (k := .readStatus) h.command
  have hslot : f.slot = 0 := h.slot_node (by rw [hnode]; rfl)
  have hreply : (⟨f.tag, f.slot, .nodeStatus u.status⟩ : Report) = reply := by
    rw [hslot]
    rfl
  refine ⟨fun hc ho => ?_, ?_⟩
  · rw [h.exec_ok (actReadStatus_copy (mode := e.mode) hc ho), hreply]
  intro hc ho m tally
  have hlong : 2 + 1 < f.payload.length := by
    rw [show f.payload.length = 5 from hc]
    decide
  refine ⟨s.ru.alarms &&& ~~~(BitVec.ofNat 9 m), fun i hi => ?_, ?_⟩
  · simp only [BitVec.getLsbD_and, BitVec.getLsbD_not, BitVec.getLsbD_ofNat, hi, decide_true, Bool.true_and]
  · rw [h.exec_ok (actReadStatus_clear (mode := e.mode) hc ho), hreply, field_two hlong]
    simp only [State.clearStatus, tallies_clear_eq]
    rfl

/-! ### CLOCK_SECOND, SET_TIME (R181, R182) -/

theorem Clock.tick_unset {c : Clock} (h : c.isSet = false) : c.tick = c := by simp [Clock.tick, h]

theorem Clock.tick_second {c : Clock} (h : c.isSet = true) (hs : c.second + 1 < 86400) :
    c.tick = ⟨true, c.day, c.second + 1⟩ := by
  simp [Clock.tick, h, secondsOfDay, hs]

theorem Clock.tick_day {c : Clock} (h : c.isSet = true) (hs : 86400 ≤ c.second + 1) :
    c.tick = ⟨true, min (c.day + 1) 65535, 0⟩ := by
  simp [Clock.tick, h, secondsOfDay, Nat.not_lt.2 hs]

theorem actSetTime_checks (mode : ReportMode) (s : State) (hc : f.count = 6) (hforce : byteAt f.payload 5 ≤ 1) :
    actSetTime mode f s =
      if secondsOfDay ≤ field f.payload 2 3 then reject .timeRange .none 0
      else if byteAt f.payload 5 = 1 ∧ f.authority ≠ 0 then reject .authorityForce .none 0
      else if s.ret.clock.isSet ∧ field f.payload 0 2 < s.ret.clock.day ∧ byteAt f.payload 5 = 0 then
        reject .timeRegress .none 0
      else .ok (({ s with ret := { s.ret with clock := ⟨true, field f.payload 0 2, field f.payload 2 3⟩ } } : State).handReceipt
        mode f.tag f.slot (.setTime s.ret.clock.isSet (if s.ret.clock.isSet then s.ret.clock.day else 0)
          (if s.ret.clock.isSet then s.ret.clock.second else 0) (field f.payload 0 2) (field f.payload 2 3)
          (byteAt f.payload 5 == 1))) :=
  if_neg (by omega)

/-- Settles O29: the clock's cases, then the checks of SET_TIME in order. -/
theorem clockCountsAndIsSet : Obligations.ClockCountsAndIsSet := by
  intro s was ticks
  have hticks {c : Clock} (hc : was.tick = c) : ticks c := by
    rw [← hc]
    rfl
  refine ⟨fun hunset => ?_, fun hset hs => hticks (Clock.tick_second hset hs), fun hset hs hd => hticks ?_,
    fun hset hs hd => hticks ?_, ?_⟩
  · exact hticks (Clock.tick_unset hunset)
  · rw [Clock.tick_day hset hs, Nat.min_eq_left hd]
  · rw [Clock.tick_day hset hs, hd]
    rfl
  intro f rest e h hc u day second force back refused hforce
  have hchecks := actSetTime_checks e.mode u hc hforce
  have hrange (hs : second < 86400) : ¬ secondsOfDay ≤ second := Nat.not_le.2 hs
  have hauthority (ha : force = 1 → f.authority = 0) : ¬ (force = 1 ∧ f.authority ≠ 0) := fun hf => hf.2 (ha hf.1)
  refine ⟨fun hs => ?_, fun hs hf ha => ?_, fun hs ha hback => ?_, fun hs ha hback => ?_⟩
  · exact h.exec_reject (hchecks.trans (if_pos hs))
  · exact h.exec_reject (hchecks.trans ((if_neg (hrange hs)).trans (if_pos ⟨hf, ha⟩)))
  · exact h.exec_reject (hchecks.trans ((if_neg (hrange hs)).trans ((if_neg (hauthority ha)).trans (if_pos hback))))
  · exact h.exec_ok (hchecks.trans ((if_neg (hrange hs)).trans ((if_neg (hauthority ha)).trans (if_neg hback))))

/-! ### READ_COUNTERS (R156 to R158) -/

theorem actReadCounters_node {mode : ReportMode} (hslot : f.slot = 0) (hc : f.count = 1) (ho : byteAt f.payload 0 ≤ 1) :
    actReadCounters mode f s =
      .ok ((if byteAt f.payload 0 = 1 then { s with counters := {} } else s).hand
        ⟨f.tag, f.slot, .nodeCounters s.counters s.fp.cycle⟩) :=
  (if_pos hslot).trans (if_neg (by omega))

theorem actReadCounters_link {mode : ReportMode} (hslot : f.slot ≠ 0) (hc : f.count = 5) (ho : byteAt f.payload 4 ≤ 1) :
    actReadCounters mode f s =
      .ok ((if byteAt f.payload 4 = 1 then s.mapLinkVol f.slot LinkVolatile.zeroCounters else s).hand
        ⟨f.tag, f.slot, .linkCounters f.kitId (s.link f.slot) (s.linkVol f.slot)⟩) :=
  (if_neg hslot).trans (if_neg (by omega))

/-- Settles O30: the reply is made of the set before the clear. -/
theorem readCountersCopiesThenClears : Obligations.ReadCountersCopiesThenClears := by
  intro s f rest e h u nodeReply v linkReply
  refine ⟨fun hslot hc => ?_, fun hslot hc => ?_⟩
  · have hnode := fun ho => h.exec_ok (actReadCounters_node (mode := e.mode) (s := u) hslot hc ho)
    rw [hslot] at hnode
    refine ⟨fun ho => ?_, fun ho => ?_⟩
    · rw [hnode (by omega), if_neg (by omega)]
      rfl
    · rw [hnode (by omega), if_pos ho]
      rfl
  · have hlink := fun ho => h.exec_ok (actReadCounters_link (mode := e.mode) (s := u) (Nat.pos_iff_ne_zero.1 hslot) hc ho)
    refine ⟨fun ho => ?_, fun ho => ?_⟩
    · rw [hlink (by omega), if_neg (by omega)]
      rfl
    · rw [hlink (by omega), if_pos ho]
      rfl

/-! ### RELAY_TO_KIT and PROBE_KIT (R67, R159) -/

theorem withAccount_some {a : Account} {act : Account → Except Reject State} (ha : s.account f.slot = some a) :
    withAccount f s act = act a := by
  simp only [withAccount, ha]

theorem actRelayToKit_checks {a : Account} (mode : ReportMode) (ha : s.account f.slot = some a) : actRelayToKit mode f s =
    if f.count - 4 = 0 ∨ 24 < f.count - 4 then reject .relayLength .account f.slot
    else if a.relay.isSome then reject .relayBusy .account f.slot
    else .ok ((s.setAccount f.slot (some { a with relay := some ⟨f.payload.drop 4, f.tag, 0⟩ })).handReceipt mode f.tag f.slot
      (.relayToKit (f.count - 4))) := by
  have hlength : (f.payload.drop 4).length = f.count - 4 := List.length_drop
  rw [← hlength]
  exact withAccount_some ha

theorem actProbeKit_checks (mode : ReportMode) (s : State) (hc : f.count = 7) : actProbeKit mode f s =
    if 4 < byteAt f.payload 6 then reject .probeFields .account f.slot
    else if !(s.link f.slot).state.probeable then reject .linkState .account f.slot
    else if (s.linkVol f.slot).probe.isSome then reject .probeBusy .account f.slot
    else .ok ((s.mapLinkVol f.slot fun v => { v with probe := some ⟨field f.payload 4 2, byteAt f.payload 6, f.tag⟩ }).handReceipt
      mode f.tag f.slot (.probeKit (field f.payload 4 2) (byteAt f.payload 6))) :=
  if_neg (not_not.2 hc)

theorem probeable_iff {l : LinkState} : l.probeable = true ↔ l = .bound ∨ l = .silent := by
  cases l <;> simp [LinkState.probeable]

/-- Settles O31: the checks of the two handlers in order, then what each holds. -/
theorem relayAndProbeAreHeld : Obligations.RelayAndProbeAreHeld := by
  intro s f rest e a ha u p
  constructor
  · intro h refused
    have hchecks := actRelayToKit_checks (s := u) e.mode ha
    refine ⟨fun hlength => ?_, fun hlong hshort hbusy => ?_, fun hlong hshort hidle => ?_⟩
    · by_cases hc : f.count - 4 = 0 ∨ 24 < f.count - 4
      · exact h.exec_reject (hchecks.trans (if_pos hc))
      · omega
    · exact h.exec_reject (hchecks.trans ((if_neg (by omega)).trans (if_pos hbusy)))
    · exact h.exec_ok (hchecks.trans ((if_neg (by omega)).trans (if_neg (by simp [hidle]))))
  · intro h hc refused seed forced v reachable
    have hchecks := actProbeKit_checks e.mode u hc
    have hreach : (!(u.link f.slot).state.probeable) = true ↔ ¬ reachable := by
      rw [Bool.not_eq_true', ← Bool.not_eq_true]
      exact not_congr probeable_iff
    refine ⟨fun hf => ?_, fun hf hr => ?_, fun hf hr hbusy => ?_, fun hf hr hidle => ?_⟩
    · exact h.exec_reject (hchecks.trans (if_pos hf))
    · exact h.exec_reject (hchecks.trans ((if_neg (Nat.not_lt.2 hf)).trans (if_pos (hreach.2 hr))))
    all_goals
      have hpast := hchecks.trans ((if_neg (Nat.not_lt.2 hf)).trans (if_neg fun hn => hreach.1 hn hr))
    · exact h.exec_reject (hpast.trans (if_pos hbusy))
    · exact h.exec_ok (hpast.trans (if_neg (by rw [show (u.linkVol f.slot).probe = none from hidle]; simp)))

end Sys2Proof.Machine
end

section
/-!
LOAD_PLAN (02): the conditions on the fields, and the plan written.
-/

namespace Sys2Proof.Machine

variable {s : State} {f : RxFrame} {rest : List RxFrame} {e : Entry}

/-- The first `n` of the four prices of a payload (12). -/
theorem prices_take (price : Nat → Nat) {n : Nat} (hn : n ≤ 4) :
    [price 0, price 1, price 2, price 3].take n = (List.range n).map price := by
  interval_cases n <;> rfl

/-- The first `m` of the three ceilings of a payload (12). -/
theorem ceilings_take (ceiling : Nat → Nat) {m : Nat} (hm : m ≤ 3) :
    [ceiling 0, ceiling 1, ceiling 2].take m = (List.range m).map ceiling := by
  interval_cases m <;> rfl

/-- The ceilings ascend from at least 1 (R26). -/
theorem ascending_iff (ceiling : Nat → Nat) {m : Nat} (hm : m ≤ 3) :
    ascendingFrom 0 ((List.range m).map ceiling) = true ↔
      (∀ k < m, 1 ≤ ceiling k) ∧ ∀ k < m - 1, ceiling k < ceiling (k + 1) := by
  interval_cases m <;> simp [ascendingFrom, List.range_succ, Nat.forall_lt_succ_right, Nat.le_one_iff_eq_zero_or_eq_one] <;> omega

/-- The fields of a payload with 1 to 4 tiers (12). -/
theorem planPayload_read {p : List Byte} (hn : byteAt p 3 ≤ 4) :
    (PlanPayload.read p).prices = (List.range (byteAt p 3)).map (fun k => field p (4 + 2 * k) 2) ∧
    (PlanPayload.read p).ceilings = (List.range (byteAt p 3 - 1)).map (fun k => field p (12 + 3 * k) 3) :=
  ⟨prices_take (fun k => field p (4 + 2 * k) 2) hn, ceilings_take (fun k => field p (12 + 3 * k) 3) (by omega)⟩

/-- The conditions of R26 as the office reads them. -/
theorem fieldsOk_iff (p : List Byte) : (PlanPayload.read p).fieldsOk = true ↔
    1 ≤ byteAt p 3 ∧ byteAt p 3 ≤ 4 ∧ (∀ k < byteAt p 3, 1 ≤ field p (4 + 2 * k) 2) ∧
      (∀ k < byteAt p 3 - 1, 1 ≤ field p (12 + 3 * k) 3) ∧
      (∀ k < byteAt p 3 - 2, field p (12 + 3 * k) 3 < field p (12 + 3 * (k + 1)) 3) ∧ 1 ≤ field p 21 3 ∧ 1 ≤ field p 25 2 ∧
      field p 27 2 < field p 25 2 ∧ byteAt p 29 ≤ 3 ∧ 1 ≤ field p 32 2 := by
  by_cases hn : 1 ≤ byteAt p 3 ∧ byteAt p 3 ≤ 4
  · obtain ⟨hprices, hceilings⟩ := planPayload_read hn.2
    have hascending := ascending_iff (fun k => field p (12 + 3 * k) 3) (m := byteAt p 3 - 1) (by omega)
    simp only [PlanPayload.fieldsOk, hprices, hceilings, hascending, Bool.and_eq_true, decide_eq_true_eq, List.all_map,
      List.all_eq_true, List.mem_range, Function.comp_apply, Nat.sub_sub, Nat.reduceAdd]
    simp only [PlanPayload.read]
    tauto
  · have htier : (PlanPayload.read p).tierCount = byteAt p 3 := rfl
    simp only [PlanPayload.fieldsOk, htier, Bool.and_eq_true, decide_eq_true_eq]
    tauto

theorem actLoadPlan_checks (mode : ReportMode) (s : State) (hc : f.count = 34) : actLoadPlan mode f s =
    if 15 < byteAt f.payload 0 then reject .planNumber .plan (byteAt f.payload 0)
    else if !(PlanPayload.read f.payload).fieldsOk then reject .planFields .plan (byteAt f.payload 0)
    else .ok ((s.setPlan (byteAt f.payload 0) (some ((PlanPayload.read f.payload).plan
      (((s.plan (byteAt f.payload 0)).map Plan.useCount).getD 0)))).handReceipt mode f.tag f.slot
        (.loadPlan (byteAt f.payload 0) (s.plan (byteAt f.payload 0)).isNone
          (((s.plan (byteAt f.payload 0)).map Plan.useCount).getD 0) (field f.payload 21 3))) :=
  if_neg (not_not.2 hc)

/-- Settles O32: the two checks in order, then the plan as the payload's fields say. -/
theorem loadPlanChecksAndWrites : Obligations.LoadPlanChecksAndWrites := by
  intro s f rest e h hc u p number n price ceiling ok uses
  have hchecks := actLoadPlan_checks e.mode u hc
  have hok : (!(PlanPayload.read f.payload).fieldsOk) = true ↔ ¬ ok := by
    rw [Bool.not_eq_true', ← Bool.not_eq_true]
    exact not_congr (fieldsOk_iff p)
  have huses : ((u.plan number).map Plan.useCount).getD 0 = uses := by
    unfold uses
    cases hp : s.plan number with
    | none => rw [show u.plan number = none from hp]; rfl
    | some q => rw [show u.plan number = some q from hp]; rfl
  refine ⟨fun hn => ?_, fun hn hbad => ?_, fun hn hgood => ?_⟩
  · exact h.exec_reject (hchecks.trans (if_pos hn))
  · exact h.exec_reject (hchecks.trans ((if_neg (Nat.not_lt.2 hn)).trans (if_pos (hok.2 hbad))))
  · have hexec := h.exec_ok (hchecks.trans ((if_neg (Nat.not_lt.2 hn)).trans (if_neg fun hbad => hok.1 hbad hgood)))
    obtain ⟨hprices, hceilings⟩ := planPayload_read (p := p) hgood.2.1
    rw [huses, PlanPayload.plan, hprices, hceilings] at hexec
    exact hexec

end Sys2Proof.Machine
end

section
/-!
The Report Unit as a function of its own registers, the cycle number and the clock (R167 to R173), and the end of held probes (R160).
-/

namespace Sys2Proof.Machine

variable {s t : State}

/-! ### What the Report Unit reads -/

/-- Two states that the Report Unit cannot tell apart: its own registers, and what an ALARM record carries (R173). -/
structure ReportsAlike (s t : State) : Prop where
  ru : t.ru = s.ru
  cycle : t.fp.cycle = s.fp.cycle
  clock : t.ret.clock = s.ret.clock

namespace ReportsAlike

theorem refl (s : State) : ReportsAlike s s := ⟨rfl, rfl, rfl⟩

theorem trans {s t u : State} (h : ReportsAlike s t) (k : ReportsAlike t u) : ReportsAlike s u :=
  ⟨k.ru.trans h.ru, k.cycle.trans h.cycle, k.clock.trans h.clock⟩

theorem symm (h : ReportsAlike s t) : ReportsAlike t s := ⟨h.ru.symm, h.cycle.symm, h.clock.symm⟩

/-- An operation of the Report Unit that rewrites its registers alike. -/
theorem of_sameButReports {s' t' : State} (h : ReportsAlike s t) (hs : SameButReports s s') (ht : SameButReports t t')
    (hru : t'.ru = s'.ru) : ReportsAlike s' t' :=
  ⟨hru, by rw [ht.fp, hs.fp]; exact h.cycle, by rw [ht.ret, hs.ret]; exact h.clock⟩

/-- A register of the Report Unit rewritten alike. -/
theorem update (h : ReportsAlike s t) (g : ReportUnit → ReportUnit) :
    ReportsAlike { s with ru := g s.ru } { t with ru := g t.ru } :=
  ⟨congrArg g h.ru, h.cycle, h.clock⟩

theorem free (h : ReportsAlike s t) : t.free = s.free := by unfold State.free; rw [h.ru]

theorem alarmRecord (h : ReportsAlike s t) (c : AlarmCause) : t.alarmRecord c = s.alarmRecord c := by
  unfold State.alarmRecord
  rw [h.cycle, h.clock]

theorem enqueue (h : ReportsAlike s t) (r : Report) : ReportsAlike (s.enqueue r) (t.enqueue r) :=
  ⟨by simp only [State.enqueue, h.ru], h.cycle, h.clock⟩

theorem tally (h : ReportsAlike s t) (g : TallyGroup) : ReportsAlike (s.tally g) (t.tally g) :=
  ⟨by simp only [State.tally, h.ru], h.cycle, h.clock⟩

theorem setAlarm (h : ReportsAlike s t) (c : AlarmCause) : ReportsAlike (s.setAlarm c) (t.setAlarm c) :=
  ⟨by simp only [State.setAlarm, h.ru], h.cycle, h.clock⟩

theorem raiseReportLoss (h : ReportsAlike s t) : ReportsAlike s.raiseReportLoss t.raiseReportLoss := by
  have hset := h.setAlarm .reportLoss
  unfold State.raiseReportLoss
  simp only [h.ru, hset.ru, hset.free, hset.alarmRecord]
  split
  · exact h
  · split
    · split
      · exact hset.enqueue _
      · exact hset.tally _
    · exact hset

theorem lose (h : ReportsAlike s t) (g : TallyGroup) : ReportsAlike (s.lose g) (t.lose g) := (h.tally g).raiseReportLoss

theorem handPlain (h : ReportsAlike s t) (r : Report) : ReportsAlike (s.handPlain r) (t.handPlain r) := by
  unfold State.handPlain
  rw [h.free]
  split
  · exact h.enqueue r
  · exact h.lose _

theorem raise (h : ReportsAlike s t) (c : AlarmCause) : ReportsAlike (s.raise c) (t.raise c) := by
  have hset := h.setAlarm c
  unfold State.raise
  simp only [h.ru, hset.ru, hset.alarmRecord]
  split
  · exact h
  · split
    · exact hset.handPlain _
    · exact hset

theorem handQuarantine (h : ReportsAlike s t) (r : Report) : ReportsAlike (s.handQuarantine r) (t.handQuarantine r) := by
  unfold State.handQuarantine
  have hholder : t.ru.holder = s.ru.holder := congrArg ReportUnit.holder h.ru
  rw [h.free, hholder]
  split
  · exact (h.enqueue r).raise _
  · split
    · exact (h.update fun ru => { ru with holder := some r }).raise _
    · exact ((((h.tally .other).raise .quarantine).raiseReportLoss).update fun ru => { ru with escalated := true }).raise _

theorem hand (h : ReportsAlike s t) (r : Report) : ReportsAlike (s.hand r) (t.hand r) := by
  unfold State.hand
  split
  · exact h.handQuarantine r
  all_goals exact h.handPlain r

theorem handAll (h : ReportsAlike s t) (rs : List Report) : ReportsAlike (s.handAll rs) (t.handAll rs) := by
  unfold State.handAll
  induction rs generalizing s t with
  | nil => exact h
  | cons r rs ih => exact ih (h.hand r)

end ReportsAlike

/-- Records handed over write the Report Unit alone, by what it reads. -/
theorem handAll_eq (h : ReportsAlike s t) (rs : List Report) : t.handAll rs = { t with ru := (s.handAll rs).ru } := by
  rw [← (h.handAll rs).ru]
  exact sameButReports_handAll t rs

theorem hand_eq (h : ReportsAlike s t) (r : Report) : t.hand r = { t with ru := (s.hand r).ru } := by
  rw [← (h.hand r).ru]
  exact sameButReports_hand t r

/-! ### Held probes ended (R160, R164) -/

/-- The result of the probe a link holds, dropped (R160). -/
def State.probeResult (s : State) (k : Nat) : Option Report :=
  (s.linkVol k).probe.map fun p =>
    ⟨p.tag, k, .probeResult (((s.account k).map Account.kitId).getD 0) p .noEcho (s.droppedCycle k)⟩

/-- The exchange of a data slot once the probes of `ks` are dropped: a probe wake of theirs goes on without its probe (R164). -/
def State.exchangeWithout (s : State) (ks : List Nat) : Option Exchange :=
  s.lc.exchange.map fun x =>
    if s.probeWake x.slot = true ∧ x.slot ∈ ks ∧ (s.linkVol x.slot).probe.isSome then { x with kind := .probe none } else x

theorem probeWake_iff {x : Exchange} (hx : s.lc.exchange = some x) (k : Nat) :
    s.probeWake k = true ↔ (∃ p, x.kind = .probe (some p)) ∧ x.slot = k := by
  obtain ⟨kind, slot, kitId⟩ := x
  unfold State.probeWake
  rw [hx]
  cases kind with
  | probe p => cases p <;> simp
  | _ => simp

theorem probeWake_none (hx : s.lc.exchange = none) (k : Nat) : s.probeWake k = false := by
  unfold State.probeWake
  rw [hx]

theorem dropProbe_none {k : Nat} (h : (s.linkVol k).probe = none) : s.dropProbe k = s := by
  simp only [State.dropProbe, h]

/-- A dropped probe leaves its link and its wake, and its result goes to the Report Unit (R160). -/
theorem dropProbe_some {k : Nat} {p : Probe} (h : (s.linkVol k).probe = some p) : s.dropProbe k =
    { s with
      lc := { s.lc with links := (s.forgetProbe k).lc.links, exchange := s.exchangeWithout [k] }
      ru := (s.handAll (s.probeResult k).toList).ru } := by
  have hresult : (s.probeResult k).toList =
      [⟨p.tag, k, .probeResult (((s.account k).map Account.kitId).getD 0) p .noEcho (s.droppedCycle k)⟩] := by
    simp [State.probeResult, h]
  have hwake : (s.forgetProbe k).dropFromWake k =
      { s with lc := { s.lc with links := (s.forgetProbe k).lc.links, exchange := s.exchangeWithout [k] } } := by
    have hsame : (s.forgetProbe k).probeWake k = s.probeWake k := rfl
    unfold State.dropFromWake State.exchangeWithout
    rw [hsame]
    cases hx : s.lc.exchange with
    | none => simp [probeWake_none hx, State.forgetProbe, State.mapLinkVol, State.setLinkVol, hx]
    | some x =>
      split
      · next hk =>
        have hslot := ((probeWake_iff hx k).1 hk).2
        subst hslot
        simp [hk, h, State.forgetProbe, State.mapLinkVol, State.setLinkVol, hx]
      · next hk =>
        have hother : ¬ (s.probeWake x.slot = true ∧ x.slot ∈ [k] ∧ (s.linkVol x.slot).probe.isSome) := by
          rintro ⟨hwake, hmem, -⟩
          exact hk (List.mem_singleton.1 hmem ▸ hwake)
        rw [Option.map_some, if_neg hother, ← hx]
        rfl
  unfold State.dropProbe
  rw [h]
  dsimp only
  rw [hwake, hresult]
  exact hand_eq (s := s) (t := { s with lc := { s.lc with links := (s.forgetProbe k).lc.links, exchange := s.exchangeWithout [k] } })
    ⟨rfl, rfl, rfl⟩ _

theorem dropProbe_frame (s : State) (k : Nat) : s.dropProbe k =
    { s with
      lc := { s.lc with links := (s.dropProbe k).lc.links, exchange := (s.dropProbe k).lc.exchange }
      ru := (s.dropProbe k).ru } := by
  cases h : (s.linkVol k).probe with
  | none => rw [dropProbe_none h]
  | some p => rw [dropProbe_some h]

theorem linkVol_dropProbe (s : State) (k j : Nat) :
    (s.dropProbe k).linkVol j = if j = k then { s.linkVol j with probe := none } else s.linkVol j := by
  cases h : (s.linkVol k).probe with
  | none =>
    rw [dropProbe_none h]
    split
    · next hj => rw [hj, ← h]
    · rfl
  | some p =>
    have hlinks : (s.dropProbe k).linkVol j = (s.forgetProbe k).linkVol j := linkVol_congr (by rw [dropProbe_some h]) j
    have hk : 1 ≤ k ∧ k ≤ 384 := by
      by_contra hk
      have hout : s.linkVol k = {} := by simp [State.linkVol, mt slotPos_lt.1 hk]
      rw [hout] at h
      cases h
    rw [hlinks, State.forgetProbe, linkVol_mapLinkVol, if_congr (and_iff_left hk) rfl rfl]
    split
    · next hj => rw [hj]
    · rfl

theorem exchange_dropProbe (s : State) (k : Nat) : (s.dropProbe k).lc.exchange = s.exchangeWithout [k] := by
  cases h : (s.linkVol k).probe with
  | some p => rw [dropProbe_some h]
  | none =>
    rw [dropProbe_none h]
    unfold State.exchangeWithout
    cases hx : s.lc.exchange with
    | none => rfl
    | some x =>
      rw [Option.map_some, if_neg]
      rintro ⟨-, hmem, hsome⟩
      rw [List.mem_singleton.1 hmem, h] at hsome
      cases hsome

/-- A probe wake of another slot goes on as it was. -/
theorem probeWake_dropProbe {j k : Nat} (hjk : j ≠ k) (s : State) : (s.dropProbe k).probeWake j = s.probeWake j := by
  have hexchange := exchange_dropProbe s k
  cases hx : s.lc.exchange with
  | none =>
    rw [probeWake_none hx, probeWake_none]
    rw [hexchange, State.exchangeWithout, hx]
    rfl
  | some x =>
    rw [State.exchangeWithout, hx, Option.map_some] at hexchange
    by_cases hc : s.probeWake x.slot = true ∧ x.slot ∈ [k] ∧ (s.linkVol x.slot).probe.isSome
    · rw [if_pos hc] at hexchange
      have hk : x.slot = k := List.mem_singleton.1 hc.2.1
      rw [Bool.eq_iff_iff, probeWake_iff hexchange, probeWake_iff hx]
      simp [hk, Ne.symm hjk]
    · rw [if_neg hc] at hexchange
      rw [Bool.eq_iff_iff, probeWake_iff hexchange, probeWake_iff hx]

theorem probeResult_dropProbe {j k : Nat} (hjk : j ≠ k) (s : State) : (s.dropProbe k).probeResult j = s.probeResult j := by
  have haccount : (s.dropProbe k).account j = s.account j := account_congr (by rw [dropProbe_frame]) j
  have hcycle : (s.dropProbe k).fp.cycle = s.fp.cycle := by rw [dropProbe_frame]
  simp only [State.probeResult, linkVol_dropProbe, if_neg hjk, haccount, State.droppedCycle, probeWake_dropProbe hjk, hcycle]

theorem exchangeWithout_cons {k : Nat} {ks : List Nat} (hk : k ∉ ks) (s : State) :
    (s.dropProbe k).exchangeWithout ks = s.exchangeWithout (k :: ks) := by
  have hexchange := exchange_dropProbe s k
  unfold State.exchangeWithout at *
  rw [hexchange]
  cases hx : s.lc.exchange with
  | none => rfl
  | some x =>
    rw [hx] at hexchange
    simp only [Option.map_some] at *
    refine congrArg some ?_
    by_cases hslot : x.slot = k
    · -- The slot is not among the rest: what its own drop left stays.
      have hkind (y : Exchange) (hy : y.slot = k) : (if (s.dropProbe k).probeWake y.slot = true ∧ y.slot ∈ ks ∧
          ((s.dropProbe k).linkVol y.slot).probe.isSome then { y with kind := .probe none } else y) = y :=
        if_neg fun h => hk (hy ▸ h.2.1)
      simp only [hslot, List.mem_cons, true_or, true_and]
      split
      · exact hkind _ rfl
      · exact hkind _ hslot
    · have hother : ¬ (s.probeWake x.slot = true ∧ x.slot ∈ [k] ∧ (s.linkVol x.slot).probe.isSome) :=
        fun h => hslot (List.mem_singleton.1 h.2.1)
      rw [if_neg hother]
      simp only [probeWake_dropProbe hslot, linkVol_dropProbe, List.mem_cons, hslot, false_or, if_false]

theorem handAll_append (s : State) (rs qs : List Report) : s.handAll (rs ++ qs) = (s.handAll rs).handAll qs :=
  List.foldl_append

theorem reportsAlike_dropProbe (s : State) (k : Nat) : ReportsAlike (s.handAll (s.probeResult k).toList) (s.dropProbe k) := by
  have hsame := sameButReports_handAll s (s.probeResult k).toList
  cases h : (s.linkVol k).probe with
  | none =>
    rw [dropProbe_none h, State.probeResult, h]
    exact .refl s
  | some p =>
    rw [dropProbe_some h]
    exact ⟨rfl, by rw [hsame.fp], by rw [hsame.ret]⟩

theorem linkVol_foldl_dropProbe (ks : List Nat) (s : State) (j : Nat) : (ks.foldl State.dropProbe s).linkVol j =
    if j ∈ ks then { s.linkVol j with probe := none } else s.linkVol j := by
  induction ks generalizing s with
  | nil => rfl
  | cons k ks ih =>
    rw [List.foldl_cons, ih, linkVol_dropProbe]
    by_cases hj : j = k <;> by_cases hmem : j ∈ ks <;> simp [hj, hmem]

theorem foldl_dropProbe_frame (ks : List Nat) (s : State) : ks.foldl State.dropProbe s =
    { s with
      lc := { s.lc with links := (ks.foldl State.dropProbe s).lc.links, exchange := (ks.foldl State.dropProbe s).lc.exchange }
      ru := (ks.foldl State.dropProbe s).ru } := by
  induction ks generalizing s with
  | nil => rfl
  | cons k ks ih =>
    have hstep := ih (s.dropProbe k)
    rw [List.foldl_cons]
    generalize ks.foldl State.dropProbe (s.dropProbe k) = u at *
    rw [hstep, dropProbe_frame s k]

theorem exchange_foldl_dropProbe {ks : List Nat} (hks : ks.Nodup) (s : State) :
    (ks.foldl State.dropProbe s).lc.exchange = s.exchangeWithout ks := by
  induction ks generalizing s with
  | nil =>
    unfold State.exchangeWithout
    cases hx : s.lc.exchange <;> simp [hx]
  | cons k ks ih =>
    obtain ⟨hk, hks⟩ := List.nodup_cons.1 hks
    rw [List.foldl_cons, ih hks, exchangeWithout_cons hk]

/-- The results of dropped probes go to the Report Unit in the slots' order (R160). -/
theorem reportsAlike_foldl_dropProbe {ks : List Nat} (hks : ks.Nodup) (s : State) :
    ReportsAlike (s.handAll (ks.filterMap s.probeResult)) (ks.foldl State.dropProbe s) := by
  induction ks generalizing s with
  | nil => exact .refl s
  | cons k ks ih =>
    obtain ⟨hk, hks⟩ := List.nodup_cons.1 hks
    have hsame : ks.filterMap (s.dropProbe k).probeResult = ks.filterMap s.probeResult :=
      List.filterMap_congr fun j hj => probeResult_dropProbe (ne_of_mem_of_not_mem hj hk) s
    have hcons : (k :: ks).filterMap s.probeResult = (s.probeResult k).toList ++ ks.filterMap s.probeResult := by
      cases hr : s.probeResult k <;> simp [hr]
    have hrest := ih hks (s.dropProbe k)
    rw [hsame] at hrest
    rw [hcons, handAll_append, List.foldl_cons]
    exact ((reportsAlike_dropProbe s k).handAll _).trans hrest

/-! ### FIELD_RESET (R137) -/

theorem linksReset_congr {s' t' : State} (hs : s'.ret = s.ret) (ht : t'.ret = t.ret) (h : LinksReset s t) : LinksReset s' t' := by
  have hlink : s'.link = s.link := funext fun k => link_congr (by rw [hs]) k
  have hlink' : t'.link = t.link := funext fun k => link_congr (by rw [ht]) k
  unfold LinksReset State.BringupCovers
  rw [hlink, hlink', hs, ht]
  exact h

theorem linkVol_emptyCallers (s : State) (k : Nat) : s.emptyCallers.linkVol k = (s.linkVol k).clearBringup := by
  have hread : s.emptyCallers.lc.links[slotPos k]? = s.lc.links[slotPos k]?.map LinkVolatile.clearBringup :=
    Vector.getElem?_map
  have hnone : LinkVolatile.clearBringup {} = {} := rfl
  unfold State.linkVol
  rw [hread, ← hnone, Option.getD_map, hnone]

/-- The node after FIELD_RESET's work on links, Caller Queue and probes, but for the records it makes. -/
def State.fieldReset (s : State) : State :=
  { slotIndices.foldl State.dropProbe s.emptyCallers.silenceLinks with ru := s.ru }

theorem linkVol_dropProbes (s : State) {k : Nat} (hk : 1 ≤ k ∧ k ≤ 384) :
    (slotIndices.foldl State.dropProbe s).linkVol k = { s.linkVol k with probe := none } :=
  (linkVol_foldl_dropProbe slotIndices s k).trans (if_pos (mem_slotIndices.2 hk))

theorem linkVol_silenceLinks (s : State) (k : Nat) : s.silenceLinks.linkVol k = s.linkVol k :=
  linkVol_congr (by rw [silenceLinks_frame]) k

/-- Link records that read slot by slot as those of `s` rewritten by `g` are those rewritten by `g`. -/
theorem links_of_linkVol {g : LinkVolatile → LinkVolatile} (h : ∀ k, 1 ≤ k ∧ k ≤ 384 → t.linkVol k = g (s.linkVol k)) :
    t.lc.links = s.lc.links.map g := by
  refine Vector.ext fun i hi => ?_
  simpa [State.linkVol, slotPos, hi] using h (i + 1) (by omega)

theorem lc_withReports (s : State) (ru : ReportUnit) : ({ s with ru := ru } : State).lc = s.lc := rfl

theorem ret_withReports (s : State) (ru : ReportUnit) : ({ s with ru := ru } : State).ret = s.ret := rfl

theorem fieldReset_lc (s : State) :
    s.fieldReset.lc = (slotIndices.foldl State.dropProbe s.emptyCallers.silenceLinks).lc :=
  lc_withReports _ s.ru

theorem linkVol_fieldReset {k : Nat} (hk : 1 ≤ k ∧ k ≤ 384) (s : State) :
    (slotIndices.foldl State.dropProbe s.emptyCallers.silenceLinks).linkVol k =
      { (s.linkVol k).clearBringup with probe := none } := by
  rw [linkVol_dropProbes _ hk, linkVol_silenceLinks, linkVol_emptyCallers]

theorem fieldReset_links (s : State) :
    s.fieldReset.lc.links = s.lc.links.map fun w => { w.clearBringup with probe := none } := by
  rw [fieldReset_lc]
  exact links_of_linkVol fun k hk => linkVol_fieldReset hk s

theorem fieldReset_probeResult (s : State) (k : Nat) : s.emptyCallers.silenceLinks.probeResult k = s.probeResult k := by
  have hframe := silenceLinks_frame s.emptyCallers
  generalize s.emptyCallers.silenceLinks = w at *
  have hprobe : (w.linkVol k).probe = (s.linkVol k).probe := by
    have hvol : w.linkVol k = s.emptyCallers.linkVol k := linkVol_congr (by rw [hframe]) k
    rw [hvol, linkVol_emptyCallers]
    rfl
  have haccount : w.account k = s.account k := account_congr (by rw [hframe]; rfl) k
  have hcycle : w.droppedCycle k = s.droppedCycle k := by
    rw [hframe]
    rfl
  simp only [State.probeResult, hprobe, haccount, hcycle]

theorem slotIndices_nodup : slotIndices.Nodup := List.nodup_range'

theorem fieldReset_exchange (s : State) : s.fieldReset.lc.exchange = s.lc.exchange.map fun x =>
    if s.probeWake x.slot = true ∧ x.slot ∈ slotIndices.filter (fun k => (s.linkVol k).probe.isSome) then
      { x with kind := .probe none }
    else x := by
  have hexchange := exchange_foldl_dropProbe slotIndices_nodup s.emptyCallers.silenceLinks
  have hframe := silenceLinks_frame s.emptyCallers
  have hprobe (k : Nat) : (s.emptyCallers.silenceLinks.linkVol k).probe = (s.linkVol k).probe := by
    rw [linkVol_silenceLinks, linkVol_emptyCallers]
    rfl
  have hread : s.emptyCallers.silenceLinks.lc.exchange = s.lc.exchange := by
    rw [hframe]
    rfl
  have hwake (k : Nat) : s.emptyCallers.silenceLinks.probeWake k = s.probeWake k := by
    unfold State.probeWake
    rw [hread]
  rw [fieldReset_lc, hexchange]
  unfold State.exchangeWithout
  simp only [hread, hwake, hprobe, List.mem_filter]

theorem fieldReset_frame (s : State) : s.fieldReset =
    { s with
      ret := { s.ret with calendar := s.fieldReset.ret.calendar, links := s.fieldReset.ret.links }
      lc := { s.lc with callers := [], links := s.fieldReset.lc.links, exchange := s.fieldReset.lc.exchange } } := by
  have hdrop := foldl_dropProbe_frame slotIndices s.emptyCallers.silenceLinks
  have hsilence := silenceLinks_frame s.emptyCallers
  unfold State.fieldReset
  generalize slotIndices.foldl State.dropProbe s.emptyCallers.silenceLinks = F at *
  generalize s.emptyCallers.silenceLinks = w at *
  rw [hdrop, hsilence]
  rfl

theorem linksReset_fieldReset (s : State) : LinksReset s s.fieldReset := by
  have hdrop := congrArg State.ret (foldl_dropProbe_frame slotIndices s.emptyCallers.silenceLinks)
  refine linksReset_congr (s := s.emptyCallers) rfl ?_ (linksReset_silenceLinks s.emptyCallers)
  unfold State.fieldReset
  rw [ret_withReports]
  exact hdrop

/-- FIELD_RESET's records go to the Report Unit after the rest is done. -/
theorem fieldReset_records (s : State) : slotIndices.foldl State.dropProbe s.emptyCallers.silenceLinks =
    s.fieldReset.handAll (slotIndices.filterMap s.probeResult) := by
  have hdrop := foldl_dropProbe_frame slotIndices s.emptyCallers.silenceLinks
  have hru := (reportsAlike_foldl_dropProbe slotIndices_nodup s.emptyCallers.silenceLinks).ru
  have hsilence := silenceLinks_frame s.emptyCallers
  have hresults : slotIndices.filterMap s.emptyCallers.silenceLinks.probeResult = slotIndices.filterMap s.probeResult :=
    List.filterMap_congr fun k _ => fieldReset_probeResult s k
  rw [hresults] at hru
  unfold State.fieldReset
  generalize slotIndices.foldl State.dropProbe s.emptyCallers.silenceLinks = F at *
  generalize s.emptyCallers.silenceLinks = w at *
  have halike : ReportsAlike w { F with ru := s.ru } := ⟨by rw [hsilence]; rfl, by rw [hdrop], by rw [hdrop]⟩
  rw [handAll_eq halike, ← hru]

/-- Settles O26: links reset, Caller Queue emptied, and the held probes dropped in the slots' order. -/
theorem fieldResetSilencesAndAbandons : Obligations.FieldResetSilencesAndAbandons := by
  intro s f rest e h hc held result
  have hact : actFieldReset e.mode f (s.setRxQueue rest) = _ := if_neg (not_not.2 hc)
  have hframe := fieldReset_frame (s.setRxQueue rest)
  rw [fieldReset_links, fieldReset_exchange] at hframe
  have hlinks := linksReset_fieldReset (s.setRxQueue rest)
  have hresults : held.filterMap result = slotIndices.filterMap (s.setRxQueue rest).probeResult := by
    refine List.filterMap_filter.trans (List.filterMap_congr fun k _ => ?_)
    change (if (s.linkVol k).probe.isSome = true then result k else none) = result k
    unfold result
    cases (s.linkVol k).probe <;> rfl
  rw [fieldReset_records] at hact
  have hexec := h.exec_ok hact
  rw [hresults]
  generalize (s.setRxQueue rest).fieldReset = v at *
  refine ⟨v, linksReset_congr (s := s.setRxQueue rest) rfl rfl hlinks, hframe, hexec.trans ?_⟩
  unfold held
  rw [← List.countP_eq_length_filter]
  rfl

end Sys2Proof.Machine
end

section
/-!
The account handlers (01): LOAD_ACCOUNT, the SET_ACCOUNT_STATE subcommands and READ_ACCOUNT.
-/

namespace Sys2Proof.Machine

variable {s : State} {f : RxFrame} {rest : List RxFrame} {e : Entry} {a : Account}

/-! ### LOAD_ACCOUNT (R14, R15, R22) -/

/-- A bit of a byte read as a number (12). -/
theorem bitAt_eq (bs : List Byte) (i k : Nat) : bitAt bs i k = (byteAt bs i).testBit k := (BitVec.testBit_toNat _).symm

theorem slotOfKit_isSome_iff {kitId : Nat} :
    (s.slotOfKit kitId).isSome = true ↔ ∃ slot x, s.account slot = some x ∧ x.kitId = kitId := by
  constructor
  · intro h
    obtain ⟨slot, hslot⟩ := Option.isSome_iff_exists.1 h
    obtain ⟨x, hx, hkit⟩ := slotOfKit_some hslot
    exact ⟨slot, x, hx, hkit⟩
  · rintro ⟨slot, x, hx, hkit⟩
    by_contra hnone
    exact slotOfKit_none (Option.not_isSome_iff_eq_none.1 hnone) hx hkit

theorem mapUseCount_of_plan {n : Nat} {q : Plan} (hq : s.plan n = some q) (g : Nat → Nat) :
    s.mapUseCount n g = s.setPlan n (some { q with useCount := g q.useCount }) := by
  simp only [State.mapUseCount, hq, Option.map_some]

/-- A LOAD_ACCOUNT payload with its presence byte read as a number (12). -/
theorem accountPayload_read (p : List Byte) : AccountPayload.read p =
    { kitId := field p 0 4, plan := byteAt p 4, balance := field p 5 3, arrears := field p 8 2
      windowBase := if (byteAt p 10).testBit 0 then some (field p 11 3) else none
      periodStart := if (byteAt p 10).testBit 1 then some (field p 14 2) else none
      baseline := if (byteAt p 10).testBit 2 then some (field p 16 3) else none } := by
  simp only [AccountPayload.read, bitAt_eq]

theorem actLoadAccount_absent {mode : ReportMode} (hc : f.count = 19) (hkit : field f.payload 0 4 ≠ 0)
    (hplan : s.plan (byteAt f.payload 4) = none) :
    actLoadAccount mode f s = reject .noPlan .plan (byteAt f.payload 4) := by
  simp [actLoadAccount, AccountPayload.read, hc, hkit, hplan]

theorem actLoadAccount_checks {q : Plan} (mode : ReportMode) (hc : f.count = 19) (hkit : field f.payload 0 4 ≠ 0)
    (hplan : s.plan (byteAt f.payload 4) = some q) :
    let p := AccountPayload.read f.payload
    actLoadAccount mode f s =
      if (s.slotOfKit p.kitId).isSome then reject .duplicateKit .account f.slot
      else if p.balance ≠ 0 ∧ p.arrears ≠ 0 then reject .balanceArrears .account f.slot
      else if q.creditCeiling < p.balance then reject .ceiling .plan p.plan
      else .ok (((((s.setAccount f.slot (some (p.account s.ret.clock))).mapUseCount p.plan (· + 1)).mapLink f.slot fun l =>
          { l with history := [], figures := none }).mapLinkVol f.slot LinkVolatile.zeroCounters).handReceipt mode f.tag f.slot
            (.loadAccount p.kitId p.plan p.balance p.arrears p.windowBase)) := by
  intro p
  have hplan' : s.plan p.plan = some q := hplan
  have hkit' : p.kitId ≠ 0 := hkit
  unfold actLoadAccount
  simp only [hc, ne_eq, not_true_eq_false, if_false]
  change (if p.kitId = 0 then _ else _) = _
  rw [if_neg hkit', hplan']

/-- Settles O35: the checks in order, then the record and the link's part. -/
theorem loadAccountChecksAndFills : Obligations.LoadAccountChecksAndFills := by
  intro s f rest e hT hc u p kitId n balance arrears given h held refused a l v
  refine ⟨fun hkit => ?_, fun hkit hplan => ?_, fun q hq => ?_⟩
  · refine hT.exec_reject (?_ : actLoadAccount e.mode f u = _)
    exact (if_neg (not_not.2 hc)).trans (if_pos hkit)
  · exact hT.exec_reject (actLoadAccount_absent (mode := e.mode) (s := u) hc hkit hplan)
  have hchecks (hkit : kitId ≠ 0) := actLoadAccount_checks (s := u) e.mode hc hkit hq
  have hheld : (u.slotOfKit kitId).isSome = true ↔ held := slotOfKit_isSome_iff
  have hfree (hfree : ¬ held) : ¬ (u.slotOfKit kitId).isSome = true := mt hheld.1 hfree
  have hone (h : balance = 0 ∨ arrears = 0) : ¬ (balance ≠ 0 ∧ arrears ≠ 0) := by tauto
  refine ⟨fun hkit hh => ?_, fun hkit hh hb ha => ?_, fun hkit hh hz hceiling => ?_, fun hkit hh hz hceiling => ?_⟩
  · exact hT.exec_reject ((hchecks hkit).trans (if_pos (hheld.2 hh)))
  · exact hT.exec_reject ((hchecks hkit).trans ((if_neg (hfree hh)).trans (if_pos ⟨hb, ha⟩)))
  · exact hT.exec_reject ((hchecks hkit).trans ((if_neg (hfree hh)).trans ((if_neg (hone hz)).trans (if_pos hceiling))))
  · have hexec := hT.exec_ok ((hchecks hkit).trans ((if_neg (hfree hh)).trans ((if_neg (hone hz)).trans
      (if_neg (Nat.not_lt.2 hceiling)))))
    rw [accountPayload_read] at hexec
    have hplan (x : Option Account) : (u.setAccount f.slot x).plan n = some q := hq
    rw [mapUseCount_of_plan (hplan _)] at hexec
    exact hexec

/-! ### SET_ACCOUNT_STATE (R7, R9 to R13) -/

theorem actSuspend_checks (mode : ReportMode) (ha : s.account f.slot = some a) (hc : f.count = 6) : actSuspend mode f s =
    if a.state = .suspended ∨ a.state = .quarantined then reject .state .account f.slot
    else .ok (s.applyState mode f .suspend a.state (a.enterHold .suspended).1 (a.enterHold .suspended).2) := by
  unfold actSuspend
  rw [if_neg (not_not.2 hc), withAccount_some ha]
  cases hs : a.state <;> simp

theorem actResume_checks (mode : ReportMode) (ha : s.account f.slot = some a) (hc : f.count = 6) : actResume mode f s =
    if a.state ≠ .suspended then reject .state .account f.slot
    else .ok (s.applyState mode f .resume a.state a.resume []) := by
  unfold actResume
  rw [if_neg (not_not.2 hc), withAccount_some ha]
  cases hs : a.state <;> simp

theorem actClearQuarantine_checks (mode : ReportMode) (ha : s.account f.slot = some a) (hc : f.count = 6)
    (hn : byteAt f.payload 5 ≤ 1) : actClearQuarantine mode f s =
      if a.state ≠ .quarantined then reject .state .account f.slot
      else .ok (s.applyState mode f .clearQuarantine a.state (a.clearQuarantine (byteAt f.payload 5 == 1)) []) := by
  have hfits : ¬ (f.count ≠ 6 ∨ 1 < f.stateArgument) := by
    unfold RxFrame.stateArgument
    omega
  unfold actClearQuarantine
  rw [if_neg hfits, withAccount_some ha]
  cases hs : a.state <;> simp [RxFrame.stateArgument]

theorem actChangePlan_checks (mode : ReportMode) (ha : s.account f.slot = some a) (hc : f.count = 6) : actChangePlan mode f s =
    if (s.plan (byteAt f.payload 5)).isNone then reject .noPlan .account f.slot
    else if byteAt f.payload 5 = a.plan then .ok (s.applyState mode f .changePlan a.state a [])
    else .ok (((s.mapUseCount a.plan (· - 1)).mapUseCount (byteAt f.payload 5) (· + 1)).applyState mode f .changePlan a.state
      { a with plan := byteAt f.payload 5 } []) := by
  unfold actChangePlan
  rw [if_neg (not_not.2 hc), withAccount_some ha]
  rfl

/-- Entry to a hold without a pending grant (R7). -/
theorem enterHold_none (h : a.pendingGrant = none) (st : AccountState) :
    a.enterHold st = ({ a with state := st, revokeDue := true, lockNoticeDue := true }, []) := by
  simp only [Account.enterHold, Account.cancelPending_none h]

/-- Entry to a hold with a pending grant (R7). -/
theorem enterHold_some {g : PendingGrant} (h : a.pendingGrant = some g) (st : AccountState) : a.enterHold st =
    ({ a with
        state := st, revokeDue := true, lockNoticeDue := true, pendingGrant := none
        balance := min (a.balance + (g.amount - min g.amount a.arrears)) maxWh
        arrears := a.arrears - min g.amount a.arrears
        q := if g.sent then a.q else seqPred a.q
        withdrawn := if g.sent then some ⟨g.seq, g.amount⟩ else a.withdrawn },
      clampNotices (a.balance + (g.amount - min g.amount a.arrears))) := by
  simp only [Account.enterHold, Account.cancelPending_some h]

/-- The record of a clamped return (R3). -/
theorem noticeRecords_clamp (tag slot sum : Nat) : noticeRecords tag slot (clampNotices sum) =
    if maxWh < sum then [⟨tag, slot, .notice (.balanceClamped (sum - maxWh))⟩] else [] := by
  unfold clampNotices
  split <;> rfl

theorem holdsCredit_iff : a.holdsCredit = true ↔
    0 < a.balance ∨ 0 < a.allowance ∨ a.pendingGrant.isSome ∨ a.withdrawn.isSome := by
  simp only [Account.holdsCredit, Bool.or_eq_true, decide_eq_true_eq, or_assoc]

theorem resume_unbound (h : a.boundOnce = false) : a.resume = { a with state := .loaded } := by
  simp [Account.resume, h]

theorem resume_active (h : a.boundOnce = true) (hc : a.holdsCredit = true) :
    a.resume = { a with state := .active, lockNoticeDue := false } := by
  simp [Account.resume, h, hc, Account.enterActive]

theorem resume_locked (h : a.boundOnce = true) (hc : ¬ a.holdsCredit = true) : a.resume = { a with state := .locked } := by
  simp [Account.resume, h, hc]

/-- Settles O37: the four subcommands, each by the account's state. -/
theorem accountStateCommands : Obligations.AccountStateCommands := by
  intro c s f rest e a h ha hc u n applied refused credit
  refine ⟨?_, ?_, ?_, ?_⟩
  · rintro rfl
    have hchecks := actSuspend_checks (s := u) e.mode ha hc
    refine ⟨fun hs => h.exec_reject (hchecks.trans (if_pos hs)), fun hs hq => ?_⟩
    have hexec := h.exec_ok (hchecks.trans (if_neg (not_or.2 ⟨hs, hq⟩)))
    refine ⟨fun hnone => ?_, fun g hg => ?_⟩
    · rw [enterHold_none hnone] at hexec
      exact hexec
    · rw [enterHold_some hg, State.applyState, noticeRecords_clamp] at hexec
      exact hexec
  · rintro rfl
    have hchecks := actResume_checks (s := u) e.mode ha hc
    refine ⟨fun hs => h.exec_reject (hchecks.trans (if_pos hs)), fun hs hb => ?_, fun hs hb hcredit => ?_,
      fun hs hb hcredit => ?_⟩
    all_goals have hexec := h.exec_ok (hchecks.trans (if_neg (not_not.2 hs)))
    · rw [resume_unbound hb] at hexec
      exact hexec
    · rw [resume_active hb (holdsCredit_iff.2 hcredit)] at hexec
      exact hexec
    · rw [resume_locked hb (mt holdsCredit_iff.1 hcredit)] at hexec
      exact hexec
  · rintro rfl hn
    have hchecks := actClearQuarantine_checks (s := u) e.mode ha hc hn
    refine ⟨fun hs => h.exec_reject (hchecks.trans (if_pos hs)), fun hs => ?_⟩
    have hexec := h.exec_ok (hchecks.trans (if_neg (not_not.2 hs)))
    rw [Account.clearQuarantine, Bool.or_comm] at hexec
    exact hexec
  · rintro rfl
    have hchecks := actChangePlan_checks (s := u) e.mode ha hc
    refine ⟨fun hp => ?_, fun new hp hn => ?_, fun old new hp hn hold => ?_⟩
    · have hp : u.plan n = none := hp
      exact h.exec_reject (hchecks.trans (if_pos (by rw [hp]; rfl)))
    all_goals
      have hp : u.plan n = some new := hp
      have hpast := hchecks.trans (if_neg (by rw [hp]; simp))
    · exact h.exec_ok (hpast.trans (if_pos hn))
    · have hexec := h.exec_ok (hpast.trans (if_neg hn))
      rw [mapUseCount_of_plan (s := u) hold, mapUseCount_of_plan (q := new) (by rw [plan_setPlan, if_neg fun h => hn h.1]; exact hp)]
        at hexec
      exact hexec

/-! ### READ_ACCOUNT (R18) -/

theorem planOf_eq {p : Plan} (hp : s.plan a.plan = some p) : s.planOf a = p := by
  simp only [State.planOf, hp, Option.getD_some]

theorem rollDue_eq (clock : Clock) (L start : Nat) :
    rollDue clock L start = (clock.isSet && decide (0 < L ∧ start + L ≤ clock.day)) := by
  rw [rollDue, Bool.and_assoc, Bool.decide_and]

theorem actReadAccount_image (mode : ReportMode) (ha : s.account f.slot = some a) (hc : f.count = 5)
    (ho : byteAt f.payload 4 ≤ 1) : actReadAccount mode f s =
      .ok ((if byteAt f.payload 4 = 1 then s.setAccount f.slot (some { a with latch := {} }) else s).hand
        ⟨f.tag, f.slot, .image a (s.periodExpired a)⟩) := by
  unfold actReadAccount
  rw [if_neg (by omega), withAccount_some ha]

/-- Settles O38: the image is made of the record before the clear. -/
theorem readAccountAnswersImage : Obligations.ReadAccountAnswersImage := by
  intro s f rest e a p h ha hp hc u clock expired image
  have hexpired : u.periodExpired a = expired := by
    rw [State.periodExpired, rollDue_eq, planOf_eq (s := u) hp]
    rfl
  have hexec (ho : byteAt f.payload 4 ≤ 1) := h.exec_ok (actReadAccount_image (s := u) e.mode ha hc ho)
  rw [hexpired] at hexec
  refine ⟨fun ho => ?_, fun ho => ?_⟩
  · rw [hexec (by omega), if_neg (by omega)]
  · rw [hexec (by omega), if_pos ho]

end Sys2Proof.Machine
end

section
/-!
APPLY_VOUCHER and ADJUST_CREDIT (01, 02): the stages in order, the commit, the voucher window and the tier walk.
-/

namespace Sys2Proof.Machine

variable {s : State} {f : RxFrame} {rest : List RxFrame} {e : Entry} {a : Account} {p : Plan} {clock : Clock} {v : VoucherPayload}

/-! ### The stages of a conversion (R30 to R36) -/

theorem convert_amountRange (h : v.amount = 0 ∨ 1000000 < v.amount) : a.convert p clock v = .error .amountRange := if_pos h

theorem convert_quarantined (h : ¬ (v.amount = 0 ∨ 1000000 < v.amount)) (hq : a.state = .quarantined) :
    a.convert p clock v = .error .quarantined := (if_neg h).trans (if_pos hq)

/-- Past the state check the voucher window decides (R31, R32). -/
theorem convert_window (h : ¬ (v.amount = 0 ∨ 1000000 < v.amount)) (hq : a.state ≠ .quarantined) : a.convert p clock v =
    match windowTest a.window v.s with
    | .duplicate => .error .duplicate
    | .stale => .error .stale
    | .accept =>
      let rolled := rollDue clock p.periodLength a.periodStart
      let sum := v.amount * 1000 + a.carry
      let w := walkTiers p.tiers (sum - p.fee * 1000) (if rolled then 0 else a.periodPurchase)
      let pay := min w.credit a.arrears
      if sum < p.fee * 1000 then .error .feeShort
      else if p.creditCeiling < a.balance + w.credit - pay then .error .ceiling
      else .ok ⟨rolled, if rolled then rolledStart clock.day p.periodLength a.periodStart else a.periodStart, w, pay,
        a.balance + w.credit - pay, a.arrears - pay⟩ :=
  (if_neg h).trans (if_neg hq)

theorem actApplyVoucher_error {r : Reason} (mode : ReportMode) (ha : s.account f.slot = some a) (hp : s.plan a.plan = some p)
    (hc : f.count = 10) (h : a.convert p s.ret.clock (.read f.payload) = .error r) :
    actApplyVoucher mode f s = .error ⟨r, .account, f.slot, some a.figures⟩ := by
  unfold actApplyVoucher
  rw [withAccount_some ha, if_neg (not_not.2 hc)]
  simp only [planOf_eq hp, h]

theorem actApplyVoucher_commit {c : Conversion} (mode : ReportMode) (ha : s.account f.slot = some a) (hp : s.plan a.plan = some p)
    (hc : f.count = 10) (h : a.convert p s.ret.clock (.read f.payload) = .ok c) : actApplyVoucher mode f s =
      .ok ((s.setAccount f.slot (some (a.commitVoucher (.read f.payload) c))).handReceipt mode f.tag f.slot
        (.applyVoucher ((a.commitVoucher (.read f.payload) c).voucherReceipt p (.read f.payload) c))) := by
  unfold actApplyVoucher
  rw [withAccount_some ha, if_neg (not_not.2 hc)]
  simp only [planOf_eq hp, h]

/-- The commit in one record (R37): the state and the lock notice move where a LOCKED account has a balance. -/
theorem commitVoucher_eq (a : Account) (v : VoucherPayload) (c : Conversion) : a.commitVoucher v c =
    { a with
      carry := c.walk.money, periodPurchase := c.walk.purchase, periodStart := c.periodStart, balance := c.balance
      arrears := c.arrears, window := some (windowAccept a.window v.s)
      state := if a.state = .locked ∧ 0 < c.balance then .active else a.state
      lockNoticeDue := if a.state = .locked ∧ 0 < c.balance then false else a.lockNoticeDue } := by
  by_cases h : a.state = .locked ∧ 0 < c.balance
  · rw [if_pos h, if_pos h]
    exact if_pos h
  · rw [if_neg h, if_neg h]
    exact if_neg h

/-- Settles O39: the stages one after the other, then the commit. -/
theorem applyVoucherConverts : Obligations.ApplyVoucherConverts := by
  intro s f rest e a p h ha hp hc u amount n refused clock rolled start sum w credit pay balance window unlocks b amountOk
  have hrefused {r : Reason} (hr : a.convert p u.ret.clock (.read f.payload) = .error r) : refused r :=
    h.exec_error (actApplyVoucher_error (s := u) e.mode ha hp hc hr)
  have hrange : ((VoucherPayload.read f.payload).amount = 0 ∨ 1000000 < (VoucherPayload.read f.payload).amount) ↔ ¬ amountOk := by
    change amount = 0 ∨ 1000000 < amount ↔ ¬ (1 ≤ amount ∧ amount ≤ 1000000)
    omega
  have hroll : rollDue u.ret.clock p.periodLength a.periodStart = rolled := rollDue_eq _ _ _
  refine ⟨fun hbad => hrefused (convert_amountRange (hrange.2 hbad)),
    fun hok hq => hrefused (convert_quarantined (fun h => hrange.1 h hok) hq), fun hok hq => ?_⟩
  have hwindow := convert_window (p := p) (clock := u.ret.clock) (fun h => hrange.1 h hok) hq
  refine ⟨fun hv => hrefused (hwindow.trans ?_), fun hv => hrefused (hwindow.trans ?_), fun hv => ?_⟩
  · rw [show windowTest a.window (VoucherPayload.read f.payload).s = .duplicate from hv]
  · rw [show windowTest a.window (VoucherPayload.read f.payload).s = .stale from hv]
  rw [show windowTest a.window (VoucherPayload.read f.payload).s = .accept from hv, hroll] at hwindow
  refine ⟨fun hfee => hrefused (hwindow.trans (if_pos hfee)),
    fun hfee hceiling => hrefused (hwindow.trans ((if_neg (Nat.not_lt.2 hfee)).trans (if_pos hceiling))),
    fun hfee hceiling => ?_⟩
  have hconvert := hwindow.trans ((if_neg (Nat.not_lt.2 hfee)).trans (if_neg (Nat.not_lt.2 hceiling)))
  have hexec := h.exec_ok (actApplyVoucher_commit (s := u) e.mode ha hp hc hconvert)
  rw [commitVoucher_eq] at hexec
  exact hexec

/-! ### ADJUST_CREDIT (R40 to R43) -/

theorem adjust_amountRange {d : Int} {g : Nat} (h : maxWh < d.natAbs) : a.adjust p d g = .error .amountRange := if_pos h

theorem adjust_quarantined {d : Int} {g : Nat} (h : ¬ maxWh < d.natAbs) (hq : a.state = .quarantined) :
    a.adjust p d g = .error .quarantined := (if_neg h).trans (if_pos hq)

/-- A positive delta pays the arrears left and adds the rest within the ceiling (R41). -/
theorem adjust_pos {d : Int} {g : Nat} (h : ¬ maxWh < d.natAbs) (hq : a.state ≠ .quarantined) (hd : 0 < d) :
    let owed := a.arrears - min g a.arrears
    let paid := min d.natAbs owed
    a.adjust p d g =
      if p.creditCeiling < a.balance + (d.natAbs - paid) then .error .ceiling
      else .ok ⟨min g a.arrears, paid, d.natAbs - paid, 0, a.balance + (d.natAbs - paid), owed - paid⟩ :=
  (if_neg h).trans ((if_neg hq).trans (if_pos hd))

/-- Any other delta removes at most the balance (R42). -/
theorem adjust_nonpos {d : Int} {g : Nat} (h : ¬ maxWh < d.natAbs) (hq : a.state ≠ .quarantined) (hd : d ≤ 0) :
    a.adjust p d g = .ok ⟨min g a.arrears, 0, 0, min d.natAbs a.balance, a.balance - min d.natAbs a.balance,
      a.arrears - min g a.arrears⟩ :=
  (if_neg h).trans ((if_neg hq).trans (if_neg (Int.not_lt.2 hd)))

theorem actAdjustCredit_error {r : Reason} (mode : ReportMode) (ha : s.account f.slot = some a) (hp : s.plan a.plan = some p)
    (hc : f.count = 10) (h : a.adjust p (signed32 (field f.payload 4 4)) (field f.payload 8 2) = .error r) :
    actAdjustCredit mode f s = .error ⟨r, .account, f.slot, some { a.figures with h := none }⟩ := by
  unfold actAdjustCredit
  rw [withAccount_some ha, if_neg (not_not.2 hc)]
  simp only [planOf_eq hp, h]

theorem actAdjustCredit_commit {j : Adjustment} (mode : ReportMode) (ha : s.account f.slot = some a) (hp : s.plan a.plan = some p)
    (hc : f.count = 10) (h : a.adjust p (signed32 (field f.payload 4 4)) (field f.payload 8 2) = .ok j) :
    actAdjustCredit mode f s =
      .ok (((s.setAccount f.slot (some (a.commitAdjustment j))).handReceipt mode f.tag f.slot
        (.adjustCredit ((a.commitAdjustment j).adjustReceipt (signed32 (field f.payload 4 4)) j))).handAll
          (noticeRecords f.tag f.slot (j.notices (signed32 (field f.payload 4 4))))) := by
  unfold actAdjustCredit
  rw [withAccount_some ha, if_neg (not_not.2 hc)]
  simp only [planOf_eq hp, h]

/-- The state test by state and credit (R6). -/
theorem creditTest_eq (b : Account) : b.creditTest =
    if b.state = .locked ∧ 0 < b.balance then { b with state := .active, lockNoticeDue := false }
    else if b.state = .active ∧ b.balance = 0 ∧ b.allowance = 0 ∧ b.pendingGrant = none ∧ b.withdrawn = none then
      { b with state := .locked, lockNoticeDue := true }
    else b := by
  have hcredit : b.holdsCredit = true ↔ ¬ (b.balance = 0 ∧ b.allowance = 0 ∧ b.pendingGrant = none ∧ b.withdrawn = none) := by
    simp only [holdsCredit_iff, Nat.pos_iff_ne_zero, Option.isSome_iff_ne_none]
    tauto
  unfold Account.creditTest
  cases hs : b.state
  case active =>
    by_cases hc : b.holdsCredit = true
    · simp [hc, hcredit.1 hc]
    · simp only [hc, not_not.1 (mt hcredit.2 hc), Account.enterLocked]
      simp
  case locked => simp [Account.enterActive]
  all_goals simp

theorem creditTest_kitId (b : Account) : b.creditTest.kitId = b.kitId := (kept_creditTest b).kit

theorem actAdjust_receipt (a : Account) (d : Int) (j : Adjustment) : (a.commitAdjustment j).adjustReceipt d j =
    ⟨a.kitId, d, j.forgiven, j.added, j.removed, j.paid, (a.commitAdjustment j).balance, (a.commitAdjustment j).allowance,
      (a.commitAdjustment j).arrears, (a.commitAdjustment j).state⟩ := by
  have hkit : (a.commitAdjustment j).kitId = a.kitId := (holderKept_commitAdjustment a j).kit
  simp only [Account.adjustReceipt, hkit]

/-- An addition makes no NOTICE (R42). -/
theorem notices_pos {d : Int} (hd : 0 < d) (j : Adjustment) : j.notices d = [] := if_neg fun h => absurd h.1 (Int.not_lt.2 hd.le)

/-- A removal cut short makes one (R42). -/
theorem notices_nonpos {d : Int} (hd : d ≤ 0) (j : Adjustment) :
    j.notices d = if j.removed < d.natAbs then [.adjustClamped d.natAbs j.removed] else [] := by
  unfold Adjustment.notices
  by_cases h : j.removed < d.natAbs
  · rw [if_pos h, if_pos ⟨by omega, h⟩]
  · rw [if_neg h, if_neg fun hn => h hn.2]

/-- Settles O40: the checks in order, then the two signs of the delta. -/
theorem adjustCreditCorrects : Obligations.AdjustCreditCorrects := by
  intro s f rest e a p h ha hp hc u raw delta x refused forgiven owed paid removed tested applied
  have hsigned : signed32 raw = delta := rfl
  have htested (b : Account) : b.creditTest = tested b := creditTest_eq b
  have hrefused {r : Reason} (hr : a.adjust p delta (field f.payload 8 2) = .error r) : refused r :=
    h.exec_error (actAdjustCredit_error (s := u) e.mode ha hp hc hr)
  have happlied {j : Adjustment} (hj : a.adjust p delta (field f.payload 8 2) = .ok j) := by
    have hexec := h.exec_ok (actAdjustCredit_commit (s := u) e.mode ha hp hc hj)
    rw [actAdjust_receipt, Account.commitAdjustment, htested] at hexec
    exact hexec
  refine ⟨fun hx => hrefused (adjust_amountRange hx), fun hx hq => hrefused (adjust_quarantined (Nat.not_lt.2 hx) hq),
    fun hx hq => ⟨fun hd hceiling => ?_, fun hd hceiling => ?_, fun hd => ?_⟩⟩
  · exact hrefused ((adjust_pos (Nat.not_lt.2 hx) hq hd).trans (if_pos hceiling))
  · have hexec := happlied ((adjust_pos (Nat.not_lt.2 hx) hq hd).trans (if_neg (Nat.not_lt.2 hceiling)))
    rw [hsigned, notices_pos hd] at hexec
    exact hexec
  · have hexec := happlied (adjust_nonpos (Nat.not_lt.2 hx) hq hd)
    rw [hsigned, notices_nonpos hd, noticeRecords, apply_ite (List.map _)] at hexec
    exact hexec

end Sys2Proof.Machine
end

section
/-!
The voucher window (R19, R20): a number once known stays known, and only numbers seen are known.
-/

namespace Sys2Proof.Machine

variable {w : Window} {n m : Nat}

theorem getLsbD_setMark (marks : BitVec 16) {i j : Nat} (hi : 1 ≤ i) (hj : 1 ≤ j) (hi' : i ≤ 16) (hj' : j ≤ 16) :
    (setMark marks j).getLsbD (16 - i) = (marks.getLsbD (16 - i) || decide (i = j)) := by
  unfold setMark
  rw [BitVec.getLsbD_or, BitVec.getLsbD_shiftLeft, BitVec.getLsbD_one]
  congr 1
  by_cases h : i = j
  · subst h
    simp
    omega
  · simp [h]
    omega

/-- A number is known to a window when the test calls it DUPLICATE (R19). -/
def Window.Knows (w : Window) (n : Nat) : Prop := n = w.h ∨ n < w.h ∧ w.h ≤ n + 16 ∧ w.mark (w.h - n) = true

theorem windowTest_some (w : Window) (n : Nat) : windowTest (some w) n =
    if w.h < n then .accept else if n = w.h then .duplicate
    else if w.h ≤ n + 16 then (if w.mark (w.h - n) then .duplicate else .accept) else .stale := rfl

theorem windowTest_duplicate : windowTest (some w) n = .duplicate ↔ w.Knows n := by
  rw [windowTest_some, Window.Knows]
  split
  · simp; omega
  · split
    · next h => simp [h]
    · split
      · next hlt hne hle =>
        have : n < w.h := by omega
        split <;> simp_all
      · simp; omega

theorem windowTest_stale : windowTest (some w) n = .stale ↔ n + 16 < w.h := by
  rw [windowTest_some]
  split
  · simp; omega
  · split
    · simp; omega
    · split
      · split <;> simp <;> omega
      · simp; omega

theorem windowTest_accept : windowTest (some w) n = .accept ↔ ¬ w.Knows n ∧ w.h ≤ n + 16 := by
  rw [← windowTest_duplicate, ← Nat.not_lt, ← windowTest_stale]
  cases windowTest (some w) n <;> simp

/-- The marks of a window moved up to `m` within reach: the former highest number and the former marks (R20). -/
theorem mark_moved (hm : w.h < m) (hn : n < m) (hreach : m ≤ n + 16) :
    (windowAccept (some w) m).mark (m - n) = true ↔ n = w.h ∨ n < w.h ∧ w.mark (w.h - n) = true := by
  have hread : (windowAccept (some w) m).mark (m - n) =
      (if m - w.h ≤ 16 then setMark (w.marks >>> (m - w.h)) (m - w.h) else 0).getLsbD (16 - (m - n)) := by
    unfold windowAccept
    simp only [if_pos hm, Window.mark]
  rw [hread]
  rcases Nat.lt_or_ge n w.h with hbelow | habove
  · -- A number below the former highest keeps its mark.
    have hindex : m - w.h + (16 - (m - n)) = 16 - (w.h - n) := by omega
    have hne : m - n ≠ m - w.h := by omega
    rw [if_pos (by omega), getLsbD_setMark _ (by omega) (by omega) (by omega) (by omega), BitVec.getLsbD_ushiftRight, hindex]
    simp [hne, hbelow, Nat.ne_of_lt hbelow, Window.mark]
  · -- From it upward only the former highest is marked.
    by_cases hfar : m - w.h ≤ 16
    · have hout : w.marks.getLsbD (m - w.h + (16 - (m - n))) = false := BitVec.getLsbD_of_ge _ _ (by omega)
      rw [if_pos hfar, getLsbD_setMark _ (by omega) (by omega) (by omega) (by omega), BitVec.getLsbD_ushiftRight, hout]
      simp
      omega
    · rw [if_neg hfar]
      simp
      omega

/-- The marks of a window that accepts a number below its highest: that number's and the former ones (R20). -/
theorem mark_filled (hm : m < w.h) (hmreach : w.h ≤ m + 16) (hn : n < w.h) (hreach : w.h ≤ n + 16) :
    (windowAccept (some w) m).mark (w.h - n) = true ↔ n = m ∨ w.mark (w.h - n) = true := by
  have hread : (windowAccept (some w) m).mark (w.h - n) = (setMark w.marks (w.h - m)).getLsbD (16 - (w.h - n)) := by
    unfold windowAccept
    simp only [if_neg (Nat.not_lt.2 hm.le), Window.mark]
  rw [hread, getLsbD_setMark _ (by omega) (by omega) (by omega) (by omega), Bool.or_eq_true, decide_eq_true_eq, Window.mark, or_comm]
  exact or_congr_left (by omega)

theorem windowAccept_h (w : Window) (m : Nat) : (windowAccept (some w) m).h = max w.h m := by
  unfold windowAccept
  simp only
  split <;> simp <;> omega

/-- What a window knows after a number is accepted (R20): that number, and of what it knew all that is within reach. -/
theorem knows_windowAccept (h : windowTest (some w) m = .accept) : (windowAccept (some w) m).Knows n ↔
    n = m ∨ w.Knows n ∧ (windowAccept (some w) m).h ≤ n + 16 := by
  obtain ⟨hnew, hreach⟩ := windowTest_accept.1 h
  have hne : m ≠ w.h := fun heq => hnew (.inl heq)
  have hh := windowAccept_h w m
  rcases Nat.lt_or_ge w.h m with hm | hm
  · rw [Nat.max_eq_right hm.le] at hh
    simp only [Window.Knows, hh]
    by_cases hn : n < m ∧ m ≤ n + 16
    · rw [mark_moved hm hn.1 hn.2]
      cases w.mark (w.h - n) <;> simp <;> omega
    · constructor
      · rintro (heq | ⟨hlt, hle, -⟩)
        · exact .inl heq
        · exact absurd ⟨hlt, hle⟩ hn
      · rintro (heq | ⟨heq | ⟨hlt, -, -⟩, hle⟩)
        · exact .inl heq
        · omega
        · omega
  · have hm : m < w.h := by omega
    rw [Nat.max_eq_left hm.le] at hh
    simp only [Window.Knows, hh]
    by_cases hn : n < w.h ∧ w.h ≤ n + 16
    · rw [mark_filled hm hreach hn.1 hn.2]
      cases w.mark (w.h - n) <;> simp <;> omega
    · constructor
      · rintro (heq | ⟨hlt, hle, -⟩)
        · exact .inr ⟨.inl heq, by omega⟩
        · exact absurd ⟨hlt, hle⟩ hn
      · rintro (heq | ⟨heq | ⟨hlt, hle, -⟩, -⟩)
        · omega
        · exact .inl heq
        · exact absurd ⟨hlt, hle⟩ hn

/-- The window after a voucher is presented: moved on where it is accepted. -/
def windowTake (w : Option Window) (n : Nat) : Option Window :=
  if windowTest w n = .accept then some (windowAccept w n) else w

/-- A number the window does not accept is not accepted after any voucher. -/
theorem windowTake_blocks (m : Nat) (h : windowTest (some w) n ≠ .accept) :
    ∃ w', windowTake (some w) m = some w' ∧ windowTest (some w') n ≠ .accept := by
  unfold windowTake
  split
  · next hm =>
    refine ⟨_, rfl, fun hn => h ?_⟩
    obtain ⟨hnew, hreach⟩ := windowTest_accept.1 hn
    rw [knows_windowAccept hm] at hnew
    have hh := windowAccept_h w m
    refine windowTest_accept.2 ⟨fun hk => hnew (.inr ⟨hk, hreach⟩), by omega⟩
  · exact ⟨w, rfl, h⟩

theorem foldl_windowTake_blocks (later : List Nat) (h : windowTest (some w) n ≠ .accept) :
    windowTest (later.foldl windowTake (some w)) n ≠ .accept := by
  induction later generalizing w with
  | nil => exact h
  | cons m later ih =>
    obtain ⟨w', hw', hn⟩ := windowTake_blocks m h
    rw [List.foldl_cons, hw']
    exact ih hn

/-- A number just accepted is a duplicate (R20). -/
theorem windowAccept_blocks (w : Option Window) (h : windowTest w n = .accept) :
    windowTest (some (windowAccept w n)) n ≠ .accept := by
  have hknows : (windowAccept w n).Knows n := by
    cases w with
    | none => exact .inl rfl
    | some w => exact (knows_windowAccept h).2 (.inl rfl)
  rw [windowTest_duplicate.2 hknows]
  decide

/-- Every number a window knows has been presented. -/
def KnowsOnly (w : Option Window) (seen : List Nat) : Prop := ∀ v, w = some v → ∀ n, v.Knows n → n ∈ seen

theorem knowsOnly_windowTake {w : Option Window} {seen : List Nat} (m : Nat) (h : KnowsOnly w seen) :
    KnowsOnly (windowTake w m) (seen ++ [m]) := by
  rintro v hv n hn
  unfold windowTake at hv
  split at hv
  · next hm =>
    cases hv
    cases w with
    | none =>
      have hn : n = m := hn.resolve_right fun hmark => by simp [windowAccept, Window.mark] at hmark
      simp [hn]
    | some w =>
      rcases (knows_windowAccept hm).1 hn with rfl | ⟨hk, -⟩
      · simp
      · exact List.mem_append_left _ (h w rfl n hk)
  · exact List.mem_append_left _ (h v hv n hn)

theorem knowsOnly_foldl {w : Option Window} {seen : List Nat} (later : List Nat) (h : KnowsOnly w seen) :
    KnowsOnly (later.foldl windowTake w) (seen ++ later) := by
  induction later generalizing w seen with
  | nil => rwa [List.append_nil]
  | cons m later ih =>
    have := ih (knowsOnly_windowTake m h)
    rwa [List.append_assoc] at this

/-- From an absent window only numbers presented are known. -/
theorem knowsOnly_seen (seen : List Nat) : KnowsOnly (seen.foldl windowTake none) seen :=
  knowsOnly_foldl (seen := []) seen fun _ h => by cases h

/-- Settles O41: what is accepted is known from then on, and nothing else becomes known. -/
theorem windowAcceptsOnce : Obligations.WindowAcceptsOnce := by
  unfold Obligations.WindowAcceptsOnce
  intro take
  refine ⟨fun w n later h => foldl_windowTake_blocks later (windowAccept_blocks w h), fun seen n hn => ?_, fun seen n hn hle => ?_⟩
  all_goals
    have honly : KnowsOnly (seen.foldl take none) seen := knowsOnly_seen seen
    generalize seen.foldl take none = w at *
  · rintro hdup
    cases w with
    | none => cases hdup
    | some w => exact hn (honly w rfl n (windowTest_duplicate.1 hdup))
  · cases w with
    | none => rfl
    | some w => exact windowTest_accept.2 ⟨fun hk => hn (honly w rfl n hk), hle w.h (honly w rfl w.h (.inl rfl))⟩

end Sys2Proof.Machine
end

section
/-!
The tier walk (R34, R35): what it spends, where it stops, and how much each tier sells.
-/

namespace Sys2Proof.Machine

/-- The price of credits bought tier by tier. -/
def spentOn (credits prices : List Nat) : Nat := (List.zipWith (fun energy price => energy * price) credits prices).sum

theorem spentOn_cons (energy price : Nat) (credits prices : List Nat) :
    spentOn (energy :: credits) (price :: prices) = energy * price + spentOn credits prices := by simp [spentOn]

/-! ### Any tiers -/

/-- A walk spends what it has bought and keeps the rest (R34). -/
theorem walk_money (tiers : List (Nat × Option Nat)) (money purchase : Nat) :
    spentOn (walkTiers tiers money purchase).credits (tiers.map Prod.fst) + (walkTiers tiers money purchase).money = money := by
  induction tiers generalizing money purchase with
  | nil => simp [walkTiers, spentOn]
  | cons tier rest ih =>
    obtain ⟨price, _ | ceiling⟩ := tier
    · have := Nat.div_mul_le_self money price
      simp [walkTiers, spentOn]
      omega
    · have hle : min (ceiling - purchase) (money / price) * price ≤ money :=
        (Nat.mul_le_mul_right price (Nat.min_le_right _ _)).trans (Nat.div_mul_le_self money price)
      simp only [walkTiers]
      split
      · have hrest := ih (money - min (ceiling - purchase) (money / price) * price)
          (purchase + min (ceiling - purchase) (money / price))
        simp only [spentOn, List.map_cons, List.zipWith_cons_cons, List.sum_cons] at *
        omega
      · simp [spentOn]
        omega

/-- The money left after all a tier sells for it is below the tier's price. -/
theorem money_lt_price {money price : Nat} (h : 1 ≤ price) : money - money / price * price < price := by
  have := Nat.mod_lt money h
  have := Nat.div_add_mod money price
  rw [Nat.mul_comm] at this
  omega

/-- A walk whose tiers have a last one stops with less money than a price (R35). -/
theorem walk_money_lt {tiers : List (Nat × Option Nat)} {top : Nat} (money purchase : Nat)
    (hlast : ∃ t ∈ tiers, t.2 = none) (hprice : ∀ t ∈ tiers, 1 ≤ t.1 ∧ t.1 ≤ top) :
    (walkTiers tiers money purchase).money < top := by
  induction tiers generalizing money purchase with
  | nil =>
    obtain ⟨t, ht, -⟩ := hlast
    cases ht
  | cons tier rest ih =>
    obtain ⟨hlow, hhigh⟩ := hprice tier List.mem_cons_self
    obtain ⟨price, _ | ceiling⟩ := tier
    · exact (money_lt_price hlow).trans_le hhigh
    · simp only [walkTiers]
      split
      · refine ih _ _ ?_ fun t ht => hprice t (List.mem_cons_of_mem _ ht)
        obtain ⟨t, ht, hnone⟩ := hlast
        rcases List.mem_cons.1 ht with rfl | ht
        · cases hnone
        · exact ⟨t, ht, hnone⟩
      · next hne =>
        have hall : min (ceiling - purchase) (money / price) = money / price := by omega
        rw [hall]
        exact (money_lt_price hlow).trans_le hhigh

/-- The period purchase grows by the credit and saturates (R34). -/
theorem walk_purchase {tiers : List (Nat × Option Nat)} (money purchase : Nat) (hstart : purchase ≤ maxWh)
    (hceiling : ∀ t ∈ tiers, ∀ c, t.2 = some c → c ≤ maxWh) : (walkTiers tiers money purchase).purchase =
      min (purchase + (walkTiers tiers money purchase).credits.sum) maxWh := by
  induction tiers generalizing money purchase with
  | nil => simp [walkTiers, hstart]
  | cons tier rest ih =>
    obtain ⟨price, _ | ceiling⟩ := tier
    · simp [walkTiers]
    · have hc : ceiling ≤ maxWh := hceiling _ List.mem_cons_self ceiling rfl
      simp only [walkTiers]
      split
      · rw [ih _ _ (by omega) fun t ht => hceiling t (List.mem_cons_of_mem _ ht), List.sum_cons, Nat.add_assoc]
      · simp
        omega

/-! ### The tiers of a plan -/

/-- The tiers of prices and of ceilings one fewer (R25). -/
def zipTiers : List Nat → List Nat → List (Nat × Option Nat)
  | price :: prices, ceiling :: ceilings => (price, some ceiling) :: zipTiers prices ceilings
  | price :: _, [] => [(price, none)]
  | [], _ => []

theorem tiers_eq_zipTiers {p : Plan} (h : p.ceilings.length + 1 = p.prices.length) : p.tiers = zipTiers p.prices p.ceilings := by
  unfold Plan.tiers
  generalize p.prices = prices, p.ceilings = ceilings at h
  induction ceilings generalizing prices with
  | nil =>
    obtain ⟨price, rfl⟩ := List.length_eq_one_iff.1 h.symm
    rfl
  | cons ceiling ceilings ih =>
    cases prices with
    | nil => simp at h
    | cons price prices =>
      have hlength : ceilings.length + 1 = prices.length := by simpa using h
      have hhead : 0 + 1 < (price :: prices).length := by simp; omega
      rw [List.mapIdx_cons, zipTiers, ← ih prices hlength, if_pos hhead]
      simp

theorem tiers_fst (p : Plan) : p.tiers.map Prod.fst = p.prices := by
  apply List.ext_getElem <;> simp [Plan.tiers]

/-- The ceiling of a tier is one of the plan's (R25). -/
theorem tiers_snd {p : Plan} {t : Nat × Option Nat} {x : Nat} (ht : t ∈ p.tiers) (hx : t.2 = some x) : x ∈ p.ceilings := by
  obtain ⟨k, hk, rfl⟩ := List.mem_mapIdx.1 ht
  dsimp only at hx
  split at hx
  · exact List.mem_of_getElem? hx
  · cases hx

/-- The last tier of a plan has no ceiling (R25). -/
theorem tiers_last {p : Plan} (h : p.prices ≠ []) : ∃ t ∈ p.tiers, t.2 = none := by
  refine ⟨(p.prices.getLast h, none), ?_, rfl⟩
  have hpos : 0 < p.prices.length := List.length_pos_of_ne_nil h
  rw [Plan.tiers, List.mem_mapIdx]
  refine ⟨p.prices.length - 1, by omega, ?_⟩
  rw [if_neg (by omega), List.getLast_eq_getElem]

/-- What a walk over a plan's tiers sells in each: the smaller of the room and what the money left can buy, in the last all of that;
it leaves a tier exactly when the room is used up (R34). -/
structure WalkShape (prices ceilings : List Nat) (money purchase : Nat) (w : Walk) : Prop where
  pos : 1 ≤ w.credits.length
  le : w.credits.length ≤ ceilings.length + 1
  sold : ∀ k < w.credits.length,
    let room := ceilings.getD k 0 - (purchase + (w.credits.take k).sum)
    let affordable := (money - spentOn (w.credits.take k) prices) / prices.getD k 0
    (k < ceilings.length → w.credits.getD k 0 = min room affordable ∧
      (k + 1 < w.credits.length ↔ w.credits.getD k 0 = room)) ∧
    (k = ceilings.length → w.credits.getD k 0 = affordable) ∧
    (k + 1 = w.credits.length → 1 ≤ prices.getD k 0 → w.money < prices.getD k 0)

theorem walkShape (prices ceilings : List Nat) (money purchase : Nat) (h : ceilings.length + 1 = prices.length) :
    WalkShape prices ceilings money purchase (walkTiers (zipTiers prices ceilings) money purchase) := by
  induction ceilings generalizing prices money purchase with
  | nil =>
    obtain ⟨price, rfl⟩ := List.length_eq_one_iff.1 h.symm
    refine ⟨Nat.le_refl 1, Nat.le_refl 1, fun k hk => ?_⟩
    have hzero : k = 0 := by simpa [zipTiers, walkTiers] using hk
    subst hzero
    simpa [zipTiers, walkTiers, spentOn] using fun hprice => money_lt_price hprice
  | cons ceiling ceilings ih =>
    cases prices with
    | nil => simp at h
    | cons price prices =>
      have hlength : ceilings.length + 1 = prices.length := by simpa using h
      generalize he : min (ceiling - purchase) (money / price) = e
      have hrest := ih prices (money - e * price) (purchase + e) hlength
      have hwalk : walkTiers (zipTiers (price :: prices) (ceiling :: ceilings)) money purchase =
          if e = ceiling - purchase then
            ⟨e :: (walkTiers (zipTiers prices ceilings) (money - e * price) (purchase + e)).credits,
              (walkTiers (zipTiers prices ceilings) (money - e * price) (purchase + e)).money,
              (walkTiers (zipTiers prices ceilings) (money - e * price) (purchase + e)).purchase⟩
          else ⟨[e], money - e * price, purchase + e⟩ := by
        simp only [zipTiers, walkTiers, he]
      rw [hwalk]
      generalize walkTiers (zipTiers prices ceilings) (money - e * price) (purchase + e) = w at *
      obtain ⟨hpos, hle, hsold⟩ := hrest
      split
      · next hroom =>
        refine ⟨by simp, by simpa using hle, fun k hk => ?_⟩
        cases k with
        | zero =>
          have hafford : e ≤ money / price := by omega
          simp only [spentOn, List.getD_cons_zero, List.take_zero, List.zipWith_nil_left, List.sum_nil, Nat.add_zero, Nat.sub_zero,
            List.length_cons, he]
          refine ⟨fun _ => ⟨trivial, by omega⟩, fun hnone => absurd hnone (by omega), fun hend => absurd hend (by omega)⟩
        | succ k =>
          have hk' : k < w.credits.length := by simpa using hk
          obtain ⟨hmiddle, hlast, hstop⟩ := hsold k hk'
          simp only [List.length_cons, List.getD_cons_succ, List.take_succ_cons, List.sum_cons, spentOn_cons, Nat.add_lt_add_iff_right,
            Nat.add_right_cancel_iff, ← Nat.add_assoc, ← Nat.sub_sub] at hmiddle hlast ⊢
          exact ⟨hmiddle, hlast, hstop⟩
      · next hroom =>
        refine ⟨Nat.le_refl 1, by simp, fun k hk => ?_⟩
        have hzero : k = 0 := by simpa using hk
        subst hzero
        have hafford : e = money / price := by omega
        simp only [spentOn, List.getD_cons_zero, List.take_zero, List.zipWith_nil_left, List.sum_nil, Nat.add_zero, Nat.sub_zero,
          List.length_cons, List.length_nil, he]
        refine ⟨fun _ => ⟨trivial, by omega⟩, fun hnone => absurd hnone (by omega), fun _ hprice => ?_⟩
        rw [hafford]
        exact money_lt_price hprice

/-- A walk passes every tier whose ceiling the purchase has reached, with nothing bought (R34). -/
theorem WalkShape.passed {prices ceilings : List Nat} {money purchase : Nat} {w : Walk} (h : WalkShape prices ceilings money purchase w)
    {k : Nat} (hk : k < ceilings.length) (hreached : ∀ i ≤ k, ceilings.getD i 0 ≤ purchase) :
    k + 1 < w.credits.length ∧ w.credits.getD k 0 = 0 := by
  induction k with
  | zero =>
    obtain ⟨hmiddle, -⟩ := h.sold 0 h.pos
    obtain ⟨hamount, hleaves⟩ := hmiddle hk
    have := hreached 0 (Nat.le_refl 0)
    exact ⟨hleaves.2 (by omega), by omega⟩
  | succ k ih =>
    obtain ⟨hin, -⟩ := ih (by omega) fun i hi => hreached i (by omega)
    obtain ⟨hmiddle, -⟩ := h.sold (k + 1) hin
    obtain ⟨hamount, hleaves⟩ := hmiddle hk
    have := hreached (k + 1) (Nat.le_refl _)
    exact ⟨hleaves.2 (by omega), by omega⟩

/-- Settles O42: the laws of the tier walk, for the walk of a conversion. -/
theorem conversionKeepsMoney : Obligations.ConversionKeepsMoney := by
  intro a p clock v c hc credits before spent
  obtain ⟨hfee, hwalk⟩ : p.fee * 1000 ≤ v.amount * 1000 + a.carry ∧
      c.walk = walkTiers p.tiers (v.amount * 1000 + a.carry - p.fee * 1000) before := by
    obtain ⟨hfee, -, hwalk, -⟩ := convert_ok hc
    exact ⟨hfee, hwalk⟩
  have hprices : ∀ x ∈ p.tiers, x.1 ∈ p.prices := fun x hx => by
    rw [← tiers_fst]
    exact List.mem_map_of_mem hx
  refine ⟨?_, fun hne hall => ?_, fun hne hall hstart => ?_, fun hlength => ?_⟩
  · have hmoney := walk_money p.tiers (v.amount * 1000 + a.carry - p.fee * 1000) before
    rw [← hwalk, tiers_fst] at hmoney
    change spent credits + c.walk.money = _ at hmoney
    omega
  · have hlt := walk_money_lt (v.amount * 1000 + a.carry - p.fee * 1000) before (tiers_last hne) fun t ht => hall _ (hprices t ht)
    rw [← hwalk] at hlt
    exact Nat.le_of_lt_succ hlt
  · have hbefore : before ≤ maxWh := by
      change (if c.rolled then 0 else a.periodPurchase) ≤ maxWh
      split
      · exact Nat.zero_le _
      · exact hstart
    have hceilings : ∀ t ∈ p.tiers, ∀ x, t.2 = some x → x ≤ maxWh := fun t ht x hx => hall x (tiers_snd ht hx)
    have hpurchase := walk_purchase (tiers := p.tiers) (v.amount * 1000 + a.carry - p.fee * 1000) before hbefore hceilings
    rwa [← hwalk] at hpurchase
  · have hshape := walkShape p.prices p.ceilings (v.amount * 1000 + a.carry - p.fee * 1000) before hlength
    rw [← tiers_eq_zipTiers hlength, ← hwalk] at hshape
    exact ⟨hshape.pos, hshape.le, fun k hk hreached => hshape.passed hk hreached, hshape.sold⟩

end Sys2Proof.Machine
end

section
/-!
The Report Unit at its limits (R167 to R170, R173): what a loss and a raised alarm leave when no ALARM record can be admitted.
-/

namespace Sys2Proof.Machine

variable {s : State}

theorem setIn_of_inFlags {c : AlarmCause} {f : AlarmFlags} (h : c.inFlags f = true) : c.setIn f = f := by
  apply BitVec.eq_of_getLsbD_eq
  intro i hi
  simp only [AlarmCause.setIn, BitVec.getLsbD_or, BitVec.getLsbD_shiftLeft, BitVec.getLsbD_one, hi, decide_true, Bool.true_and]
  by_cases hbit : i = c.bit
  · subst hbit
    rw [show f.getLsbD c.bit = true from h, Bool.true_or]
  · rw [Bool.or_eq_left_iff_imp]
    intro hset
    simp only [Bool.and_eq_true, Bool.not_eq_true', decide_eq_false_iff_not, decide_eq_true_eq] at hset
    omega

theorem inFlags_setIn_self (c : AlarmCause) (f : AlarmFlags) : c.inFlags (c.setIn f) = true := by
  cases c <;> simp [AlarmCause.inFlags, AlarmCause.setIn, AlarmCause.bit]

theorem inFlags_setIn_of_ne {c d : AlarmCause} (h : c ≠ d) (f : AlarmFlags) : c.inFlags (d.setIn f) = c.inFlags f := by
  have hbit : c.bit ≠ d.bit := by revert h; cases c <;> cases d <;> decide
  simp only [AlarmCause.inFlags, AlarmCause.setIn, BitVec.getLsbD_or, BitVec.getLsbD_shiftLeft, BitVec.getLsbD_one]
  rw [Bool.or_eq_left_iff_imp]
  intro hset
  simp only [Bool.and_eq_true, Bool.not_eq_true', decide_eq_false_iff_not, decide_eq_true_eq] at hset
  omega

/-- The Report Unit after a cause is raised whose ALARM record, where one is made, is lost (R173). -/
def ReportUnit.lostAlarm (u : ReportUnit) (c : AlarmCause) : ReportUnit :=
  { u with
    alarms := c.setIn u.alarms
    tallies := if !c.inFlags u.alarms && c.inFlags u.mask then u.tallies.bump .advisory else u.tallies }

theorem lostAlarm_of_inFlags {u : ReportUnit} {c : AlarmCause} (h : c.inFlags u.alarms = true) : u.lostAlarm c = u := by
  simp [ReportUnit.lostAlarm, setIn_of_inFlags h, h]

/-- REPORT_LOSS raised with fewer than nine entries free loses its own ALARM record (R173). -/
theorem raiseReportLoss_of_free_lt (h : s.free < 9) : s.raiseReportLoss = { s with ru := s.ru.lostAlarm .reportLoss } := by
  unfold State.raiseReportLoss
  split
  · next hset => rw [lostAlarm_of_inFlags hset]
  · next hclear =>
    have hfree : ¬ 9 ≤ (s.setAlarm .reportLoss).free := Nat.not_le.2 h
    simp only [hfree, if_false]
    split
    · next hmask =>
      have hmask' : AlarmCause.reportLoss.inFlags s.ru.mask = true := hmask
      simp [ReportUnit.lostAlarm, State.setAlarm, State.tally, hclear, hmask']
    · next hmask =>
      have hmask' : ¬ AlarmCause.reportLoss.inFlags s.ru.mask = true := hmask
      simp [ReportUnit.lostAlarm, State.setAlarm, hmask']

theorem lose_of_free_lt (h : s.free < 9) (g : TallyGroup) :
    s.lose g = { s with ru := ReportUnit.lostAlarm { s.ru with tallies := s.ru.tallies.bump g } .reportLoss } :=
  raiseReportLoss_of_free_lt h

theorem inFlags_lostAlarm_self (u : ReportUnit) (c : AlarmCause) : c.inFlags (u.lostAlarm c).alarms = true :=
  inFlags_setIn_self c u.alarms

theorem lostAlarm_again (u : ReportUnit) (c : AlarmCause) : (u.lostAlarm c).lostAlarm c = u.lostAlarm c :=
  lostAlarm_of_inFlags (inFlags_setIn_self c u.alarms)

/-- The Report Unit after a cause is raised, its ALARM record lost and REPORT_LOSS raised for it (R173). -/
def ReportUnit.lostRaise (u : ReportUnit) (c : AlarmCause) : ReportUnit :=
  if !c.inFlags u.alarms && c.inFlags u.mask then (u.lostAlarm c).lostAlarm .reportLoss else u.lostAlarm c

/-- A cause raised with fewer than nine entries free: its ALARM record, where one is made, is lost and raises REPORT_LOSS (R173). -/
theorem raise_of_free_lt (h : s.free < 9) (c : AlarmCause) :
    s.raise c = { s with ru := s.ru.lostRaise c } := by
  unfold State.raise ReportUnit.lostRaise
  split
  · next hset => simp [hset, lostAlarm_of_inFlags hset]
  · next hclear =>
    dsimp only
    split
    · next hmask =>
      have hmask' : c.inFlags s.ru.mask = true := hmask
      have hlost : ¬ 9 ≤ (s.setAlarm c).free := Nat.not_le.2 h
      have hplain : (s.setAlarm c).handPlain ((s.setAlarm c).alarmRecord c) = (s.setAlarm c).lose .advisory := if_neg hlost
      rw [hplain, lose_of_free_lt (s := s.setAlarm c) h]
      simp [hclear, hmask', State.setAlarm, ReportUnit.lostAlarm]
    · next hmask =>
      have hmask' : ¬ c.inFlags s.ru.mask = true := hmask
      simp [hmask', State.setAlarm, ReportUnit.lostAlarm]

/-- What the Report Unit is left with when a QUARANTINE record is lost (R169, R170). -/
def ReportUnit.lostQuarantine (u : ReportUnit) : ReportUnit :=
  let lost := ReportUnit.lostAlarm (ReportUnit.lostAlarm { u with tallies := u.tallies.bump .other } .quarantine) .reportLoss
  ReportUnit.lostAlarm { lost with escalated := true } .escalated

theorem queue_lostRaise (u : ReportUnit) (c : AlarmCause) : (u.lostRaise c).queue = u.queue := by
  unfold ReportUnit.lostRaise
  split <;> rfl

theorem lostRaise_lostAlarm (u : ReportUnit) (c : AlarmCause) :
    (u.lostRaise c).lostAlarm .reportLoss = (u.lostAlarm c).lostAlarm .reportLoss := by
  unfold ReportUnit.lostRaise
  split
  · exact lostAlarm_again _ _
  · rfl

theorem lostRaise_of_reportLoss {u : ReportUnit} {c : AlarmCause} (h : AlarmCause.reportLoss.inFlags u.alarms = true) :
    u.lostRaise c = u.lostAlarm c := by
  have hset : AlarmCause.reportLoss.inFlags (u.lostAlarm c).alarms = true := by
    simp only [ReportUnit.lostAlarm, AlarmCause.setIn, AlarmCause.inFlags, BitVec.getLsbD_or] at h ⊢
    rw [h, Bool.true_or]
  unfold ReportUnit.lostRaise
  rw [lostAlarm_of_inFlags hset, ite_self]

/-- A QUARANTINE record that finds queue and holder occupied is lost (R169, R170). -/
theorem handQuarantine_lost {r : Report} (hfree : s.free = 0) (hholder : s.ru.holder.isNone = false) :
    s.handQuarantine r = { s with ru := s.ru.lostQuarantine } := by
  have hlt (t : State) (hqueue : t.ru.queue = s.ru.queue) : t.free < 9 := by
    rw [State.free, hqueue, ← State.free, hfree]
    decide
  have hquarantine : ((s.tally .other).raise .quarantine).raiseReportLoss =
      { s with ru := ((s.tally .other).ru.lostAlarm .quarantine).lostAlarm .reportLoss } := by
    rw [raise_of_free_lt (hlt (s.tally .other) rfl), raiseReportLoss_of_free_lt (hlt _ (queue_lostRaise _ _)), lostRaise_lostAlarm]
    rfl
  unfold State.handQuarantine
  rw [if_neg (by omega), hholder, if_neg Bool.false_ne_true]
  dsimp only
  rw [hquarantine]
  generalize hu : ((s.tally .other).ru.lostAlarm .quarantine).lostAlarm .reportLoss = u
  have hqueue : u.queue = s.ru.queue := by rw [← hu]; rfl
  have hset : AlarmCause.reportLoss.inFlags u.alarms = true := by rw [← hu]; exact inFlags_lostAlarm_self _ _
  have hlost : s.ru.lostQuarantine = ReportUnit.lostAlarm { u with escalated := true } .escalated := by rw [← hu]; rfl
  rw [hlost, ← lostRaise_of_reportLoss (u := { u with escalated := true }) hset]
  exact raise_of_free_lt (s := { s with ru := { u with escalated := true } }) (hlt _ hqueue) .escalated

/-- A step for each flag of QUARANTINE, ESCALATED and REPORT_LOSS that is fresh, in whatever order. -/
theorem foldl_filter_flags (fresh : Nat → Bool) (step : Tallies → Tallies) (start : Tallies) :
    ([3, 7, 8].filter fresh).foldl (fun tallies _ => step tallies) start =
      let quarantine := if fresh 3 then step start else start
      let loss := if fresh 8 then step quarantine else quarantine
      if fresh 7 then step loss else loss := by
  cases h3 : fresh 3 <;> cases h7 : fresh 7 <;> cases h8 : fresh 8 <;> simp [h3, h7, h8]

theorem tallies_lostQuarantine (u : ReportUnit) : u.lostQuarantine.tallies =
    ([3, 7, 8].filter fun i => !u.alarms.getLsbD i && u.mask.getLsbD i).foldl (fun tallies _ => tallies.bump .advisory)
      (u.tallies.bump .other) := by
  simp only [ReportUnit.lostQuarantine, ReportUnit.lostAlarm, ne_eq, reduceCtorEq, not_false_eq_true, inFlags_setIn_of_ne]
  exact (foldl_filter_flags (fun i => !u.alarms.getLsbD i && u.mask.getLsbD i) (Tallies.bump · .advisory) _).symm

theorem other_lostQuarantine (u : ReportUnit) : u.lostQuarantine.tallies.other = min (u.tallies.other + 1) 255 := by
  have hadvisory (l : List Nat) (t : Tallies) : (l.foldl (fun tallies _ => tallies.bump .advisory) t).other = t.other := by
    induction l generalizing t with
    | nil => rfl
    | cons i l ih => exact ih _
  rw [tallies_lostQuarantine, hadvisory]
  rfl

/-- Settles O46: admission by the class's margin; a record that finds too little room is lost, and so are the ALARM records of
the causes its loss raises. -/
theorem reportsAdmittedByClass : Obligations.ReportsAdmittedByClass := by
  intro s r queued fill
  have hfree : s.free = 64 - fill := rfl
  refine ⟨fun hclass hfill => ?_, fun hclass hfill => ?_, fun hlost => ?_, fun hclass => ⟨fun hfill => ?_, fun hfill hholder => ?_,
    fun hfill q hholder => ?_⟩⟩
  · exact hand_essential hclass (by omega)
  · have hmargin : r.body.reportClass.margin ≤ s.free := by rw [hclass]; exact (by omega : 9 ≤ s.free)
    simp only [State.hand, hclass]
    exact if_pos hmargin
  · have hlose : s.hand r = s.lose r.body.group ∧ s.free < 9 := by
      rcases hlost with ⟨hclass, hfill⟩ | ⟨hclass, hfill⟩
      · have hmargin : ¬ ReportClass.essential.margin ≤ s.free := by change ¬ 1 ≤ s.free; omega
        simp only [State.hand, hclass, State.handPlain, if_neg hmargin, true_and]
        omega
      · have hmargin : ¬ ReportClass.advisory.margin ≤ s.free := by change ¬ 9 ≤ s.free; omega
        simp only [State.hand, hclass, State.handPlain, if_neg hmargin, true_and]
        omega
    rw [hlose.1, lose_of_free_lt hlose.2]
    refine ⟨_, rfl, rfl, rfl, rfl, rfl, fun hset => if_neg ?_, fun hclear hmask => if_pos ?_⟩
    · simpa [AlarmCause.inFlags, AlarmCause.bit, imp_iff_not_or] using hset
    · simpa [AlarmCause.inFlags, AlarmCause.bit] using ⟨hclear, hmask⟩
  · simp only [State.hand, hclass, State.handQuarantine]
    rw [if_pos (by omega)]
    rfl
  · simp only [State.hand, hclass, State.handQuarantine, hholder]
    rw [if_neg (by omega)]
    rfl
  · have hhand : s.hand r = { s with ru := s.ru.lostQuarantine } := by
      simp only [State.hand, hclass]
      exact handQuarantine_lost (by omega) (by rw [hholder]; rfl)
    rw [hhand]
    refine ⟨_, rfl, rfl, hholder, rfl, ?_, ?_, ?_⟩
    · change AlarmCause.escalated.setIn (AlarmCause.reportLoss.setIn (AlarmCause.quarantine.setIn s.ru.alarms)) = _
      simp only [AlarmCause.setIn, AlarmCause.bit, BitVec.or_assoc]
      rfl
    · exact (other_lostQuarantine s.ru)
    · exact (tallies_lostQuarantine s.ru)

end Sys2Proof.Machine
end

section
/-!
Beacon arbitration and keying (R46, R104, R107 to R110, R112), and the search of an allocation (R122 to R124).
-/

namespace Sys2Proof.Machine

variable {s : State}

theorem putFlag_run (m : Mode) : putFlag (m == .run) = [if m = .run then 1 else 0] := by cases m <;> decide

/-- Settles O49: either outcome is appended to the history, and the count of yields in it is tested. -/
theorem beaconArbitration : Obligations.BeaconArbitration := by
  intro s word hword history tested f
  have htested (t : State) (o : YieldOutcome) (h : t.fp.history = s.fp.history) (hc : t.ret.config = s.ret.config) :
      t.recordYield o = tested { t with fp := { t.fp with history := history o } } := by
    change (if t.ret.config.yieldLimit ≤ yieldedCount (appendYield t.fp.history o) then _ else _) = if _ then _ else _
    rw [h, hc, yieldedCount, List.countP_eq_length_filter]
    simp only [State.setFp]
    rfl
  refine ⟨?_, fun bit hbit => ⟨fun hset => ?_, fun hclear => ?_⟩⟩
  · change execBeaconWon s = _
    have hframe : beaconFrame s.fp.idInEffect s.fp.cycle s.fp.cycleDay s.ret.active.contentionCount (s.fp.effective == .run) = f := by
      rw [beaconFrame, putFlag_run]
    simp only [execBeaconWon, hword, hframe]
    exact congrArg _ (htested _ .won rfl rfl)
  · change execBeaconYield bit s = _
    simp only [execBeaconYield, hword, hset, hbit, decide_true, Bool.and_self, if_true]
    exact congrArg _ (htested _ .yielded rfl rfl)
  · change execBeaconYield bit s = _
    simp only [execBeaconYield, hword, hclear, Bool.and_false, Bool.false_eq_true, if_false]

/-- An account written back as it stands changes nothing. -/
theorem setAccount_account {slot : Nat} {a : Account} (h : s.account slot = some a) : s.setAccount slot (some a) = s := by
  have haccounts : s.ret.accounts.setIfInBounds (slotPos slot) (some a) = s.ret.accounts := by
    have hat : s.ret.accounts[slotPos slot]? = some (some a) := Option.join_eq_some_iff.1 h
    have hlt : slotPos slot < 384 := slotPos_lt.2 (account_range h)
    rw [Vector.getElem?_eq_getElem hlt] at hat
    apply Vector.ext
    intro i hi
    rw [Vector.getElem_setIfInBounds]
    split
    · next hi =>
      subst hi
      exact (Option.some.inj hat).symm
    · rfl
  change { s with ret := { s.ret with accounts := _ } } = s
  rw [haccounts]

/-- Settles O54: the keying notice of a POLL with a grant reaches the account it was made for, and nothing else. -/
theorem keyingMarksGrantSent : Obligations.KeyingMarksGrantSent := by
  intro s f
  refine ⟨fun hhanded => ?_, fun air hair => ?_⟩
  · intro u
    have hexec : exec .keyingBegun s = .next u.noticeKeying := by
      change execKeyingBegun s = _
      simp only [execKeyingBegun, hhanded]
      rfl
    rw [hexec]
    constructor
    · intro hother
      have : u.noticeKeying = u := by
        unfold State.noticeKeying
        split
        · next carried slot kitId hexchange => exact absurd hexchange (hother carried slot kitId)
        · rfl
      rw [this]
    · intro carried slot kitId hexchange
      have hnotice : u.noticeKeying = u.keyingNotice slot kitId carried.grant := by
        unfold State.noticeKeying
        rw [show u.lc.exchange = _ from hexchange]
      have haccount : u.account slot = s.account slot := account_congr rfl slot
      rw [hnotice]
      refine ⟨fun hgrant => ?_, fun hnone => ?_, fun a g ha hgrant => ⟨fun hkit => ?_, fun hkit => ?_⟩⟩
      · rw [hgrant]
        rfl
      · unfold State.keyingNotice
        rw [haccount, hnone]
        cases carried.grant <;> rfl
      · simp only [State.keyingNotice, hgrant, haccount, ha, if_neg hkit]
      · have hkeyed : u.keyingNotice slot kitId carried.grant = u.setAccount slot (some (a.keyed g)) := by
          simp only [State.keyingNotice, hgrant, haccount, ha, if_pos hkit]
        rw [hkeyed]
        refine ⟨fun p hp hseq => ?_, fun hp hw hq => ?_, fun hseq hother => ?_⟩
        · simp only [Account.keyed, hp, if_pos hseq]
        · simp [Account.keyed, hp, hw, seqSucc, ← hq]
        · have hsame : a.keyed g = a := by
            unfold Account.keyed
            split
            · next p hp => exact if_neg (hseq p hp)
            · next hp =>
              rw [if_neg]
              rintro hconditions
              simp only [Bool.and_eq_true, Option.isNone_iff_eq_none, beq_iff_eq, seqSucc] at hconditions
              simp [hp, hconditions.1, ← hconditions.2] at hother
          rw [hsame, setAccount_account (haccount.trans ha)]
  · constructor
    · intro hkind
      change execDownlinkKeyed s = _
      simp only [execDownlinkKeyed, hair, if_pos hkind]
      rfl
    · intro hkind
      change execDownlinkKeyed s = _
      simp only [execDownlinkKeyed, hair, if_neg hkind]
      rfl

/-! ### The search for a placement (R123) -/

/-- The order of the search (R123): by exponent, then phase, then data slot. -/
def Placement.earlier (p q : Placement) : Prop :=
  p.exponent < q.exponent ∨ p.exponent = q.exponent ∧ (p.phase < q.phase ∨ p.phase = q.phase ∧ p.slot < q.slot)

/-- The placements an allocation may take (R122, R123). -/
def Placement.legal (start top : Nat) (p : Placement) : Prop :=
  start ≤ p.exponent ∧ p.exponent ≤ top ∧ p.phase < 2 ^ p.exponent ∧ p.slot < 24

/-- The placements of the exponents from `start` to `top`, in the order of the search. -/
def searchOrder (start top : Nat) : List Placement := (List.range' start (top + 1 - start)).flatMap placementsAt

theorem mem_searchOrder {start top : Nat} {p : Placement} : p ∈ searchOrder start top ↔ p.legal start top := by
  obtain ⟨phase, slot, exponent⟩ := p
  simp only [searchOrder, placementsAt, Placement.legal, List.mem_flatMap, List.mem_range'_1, List.mem_range, List.mem_map,
    Placement.mk.injEq]
  constructor
  · rintro ⟨e, he, phase', hphase, slot', hslot, rfl, rfl, rfl⟩
    exact ⟨he.1, by omega, hphase, hslot⟩
  · rintro ⟨hlow, hhigh, hphase, hslot⟩
    exact ⟨exponent, by omega, phase, hphase, slot, hslot, rfl, rfl, rfl⟩

theorem pairwise_searchOrder (start top : Nat) : (searchOrder start top).Pairwise Placement.earlier := by
  have hphases (e : Nat) : (placementsAt e).Pairwise Placement.earlier := by
    refine List.pairwise_flatMap.2 ⟨fun p _ => ?_, ?_⟩
    · exact List.pairwise_map.2 (List.pairwise_lt_range.imp fun hslot => .inr ⟨rfl, .inr ⟨rfl, hslot⟩⟩)
    · refine List.pairwise_lt_range.imp fun hphase x hx y hy => ?_
      obtain ⟨_, -, rfl⟩ := List.mem_map.1 hx
      obtain ⟨_, -, rfl⟩ := List.mem_map.1 hy
      exact .inr ⟨rfl, .inl hphase⟩
  have hexponent {e : Nat} {p : Placement} (hp : p ∈ placementsAt e) : p.exponent = e := by
    obtain ⟨_, -, hp⟩ := List.mem_flatMap.1 hp
    obtain ⟨_, -, rfl⟩ := List.mem_map.1 hp
    rfl
  refine List.pairwise_flatMap.2 ⟨fun e _ => hphases e, ?_⟩
  refine (List.pairwise_lt_range' ..).imp fun he x hx y hy => .inl ?_
  rwa [hexponent hx, hexponent hy]

theorem earlier_irrefl (p : Placement) : ¬ p.earlier p := by simp [Placement.earlier]

theorem earlier_asymm {p q : Placement} (h : p.earlier q) : ¬ q.earlier p := by
  unfold Placement.earlier at *
  omega

/-- The first placement found has no free one before it (R123). -/
theorem findPlacement_first {start top : Nat} {q : Placement} (h : s.findPlacement start top = some q) :
    q.legal start top ∧ s.placementFree q = true ∧ ∀ p, p.legal start top → p.earlier q → s.placementFree p = false := by
  obtain ⟨hfree, before, after, horder, hbefore⟩ := List.find?_eq_some_iff_append.1 h
  have hpairwise := pairwise_searchOrder start top
  rw [searchOrder, horder] at hpairwise
  refine ⟨mem_searchOrder.1 ?_, hfree, fun p hp hearlier => ?_⟩
  · rw [searchOrder, horder]
    simp
  · have hmem := mem_searchOrder.2 hp
    rw [searchOrder, horder, List.mem_append, List.mem_cons] at hmem
    rcases hmem with hp | rfl | hp
    · simpa using hbefore p hp
    · exact absurd hearlier (earlier_irrefl p)
    · have := (List.pairwise_cons.1 (List.pairwise_append.1 hpairwise).2.1).1 p hp
      exact absurd hearlier (earlier_asymm this)

theorem findPlacement_none {start top : Nat} (h : s.findPlacement start top = none) {p : Placement} (hp : p.legal start top) :
    s.placementFree p = false := by
  simpa using List.find?_eq_none.1 h p (mem_searchOrder.2 hp)

/-! ### The cells of a placement (R122) -/

theorem mem_rows {p : Placement} (he : p.exponent ≤ 6) (hphase : p.phase < 2 ^ p.exponent) {row : Nat} :
    row ∈ p.rows ↔ row < 64 ∧ row % 2 ^ p.exponent = p.phase := by
  obtain ⟨m, hm⟩ : 2 ^ p.exponent ∣ 64 := Nat.pow_dvd_pow 2 he
  have hpos : 0 < 2 ^ p.exponent := Nat.two_pow_pos _
  simp only [Placement.rows, List.mem_map, List.mem_range]
  generalize 2 ^ p.exponent = interval at *
  have hcount : 64 / interval = m := by rw [hm, Nat.mul_div_cancel_left m hpos]
  rw [hcount, hm]
  constructor
  · rintro ⟨k, hk, rfl⟩
    refine ⟨?_, by rw [Nat.add_mul_mod_self_right, Nat.mod_eq_of_lt hphase]⟩
    calc p.phase + k * interval < (k + 1) * interval := by rw [Nat.add_mul, Nat.one_mul]; omega
      _ ≤ m * interval := Nat.mul_le_mul_right interval hk
      _ = interval * m := Nat.mul_comm ..
  · rintro ⟨hrow, hmod⟩
    exact ⟨row / interval, Nat.div_lt_of_lt_mul hrow, hmod ▸ Nat.mod_add_div' row interval⟩

theorem cellIndex_mem_cells {p : Placement} (he : p.exponent ≤ 6) (hphase : p.phase < 2 ^ p.exponent) (hslot : p.slot < 24)
    {row column : Nat} (hcolumn : column < 24) :
    cellIndex row column ∈ p.cells ↔ row < 64 ∧ row % 2 ^ p.exponent = p.phase ∧ column = p.slot := by
  simp only [Placement.cells, List.mem_map, mem_rows he hphase, cellIndex]
  constructor
  · rintro ⟨r, hr, heq⟩
    obtain ⟨rfl, rfl⟩ : r = row ∧ p.slot = column := by omega
    exact ⟨hr.1, hr.2, rfl⟩
  · rintro ⟨hrow, hmod, rfl⟩
    exact ⟨row, ⟨hrow, hmod⟩, rfl⟩

/-- A placement is free when every cell it covers is (R122). -/
theorem placementFree_iff {p : Placement} (he : p.exponent ≤ 6) (hphase : p.phase < 2 ^ p.exponent) (hslot : p.slot < 24) :
    s.placementFree p = true ↔
      ∀ row column, row < 64 → row % 2 ^ p.exponent = p.phase → column = p.slot → s.cell row column = none := by
  have hread (row : Nat) (hrow : row < 64) :
      s.ret.calendar[cellIndex row p.slot]? = some none ↔ s.cell row p.slot = none := by
    have hin : cellIndex row p.slot < 1536 := by unfold cellIndex; omega
    rw [State.cell, Vector.getElem?_eq_getElem hin]
    simp
  simp only [State.placementFree, Placement.cells, List.all_map, List.all_eq_true, Function.comp_apply, beq_iff_eq,
    mem_rows he hphase]
  constructor
  · rintro h row column hrow hmod rfl
    exact (hread row hrow).1 (h row ⟨hrow, hmod⟩)
  · exact fun h row hrow => (hread row hrow.1).2 (h row p.slot hrow.1 hrow.2 rfl)

/-- Settles O53: the search runs in the order of exponent, phase and slot, over the cells R122 gives a placement. -/
theorem allocationTakesFirstFree : Obligations.AllocationTakesFirstFree := by
  intro s slot start top hlow hhigh legal free earlier former
  refine ⟨fun i => ⟨fun hformer => ?_, fun hformer => ?_⟩, ?_, fun low high preferred hrange => ?_, ?_, fun htop => ⟨?_, ?_⟩⟩
  · rw [release_calendar]
    split
    · rfl
    · next hout =>
      have hi : ¬ i < 1536 := fun hi => hout ⟨hformer, hi⟩
      rw [Vector.getElem?_eq_none (Nat.not_lt.1 hi)]
      rfl
  · rw [release_calendar, if_neg fun h => hformer h.1]
  · rw [link_release, if_pos rfl]
  · unfold startExponent
    omega
  · intro p he hphase hslot row column hrow hcolumn
    have hin : cellIndex row column < 1536 := by unfold cellIndex; omega
    have hmem := cellIndex_mem_cells he hphase hslot (row := row) hcolumn
    rw [State.cell, fillCells_calendar]
    by_cases hcell : row % 2 ^ p.exponent = p.phase ∧ column = p.slot
    · rw [if_pos ⟨hmem.2 ⟨hrow, hcell⟩, hin⟩, if_pos hcell]
      rfl
    · rw [if_neg (fun h => hcell (hmem.1 h.1).2), if_neg hcell]
      rfl
  · intro q hq
    obtain ⟨hlegal, hfree, hfirst⟩ := findPlacement_first hq
    have hiff {p : Placement} (hp : p.legal start top) : s.placementFree p = true ↔ free p :=
      placementFree_iff (hp.2.1.trans htop) hp.2.2.1 hp.2.2.2
    exact ⟨hlegal, (hiff hlegal).1 hfree, fun p hp he hfreep =>
      absurd ((hiff hp).2 hfreep) (by rw [hfirst p hp he]; exact Bool.false_ne_true)⟩
  · intro hnone p hp hfreep
    have htrue := (placementFree_iff (s := s) (hp.2.1.trans htop) hp.2.2.1 hp.2.2.2).2 hfreep
    rw [findPlacement_none hnone hp] at htrue
    exact absurd htrue Bool.false_ne_true

end Sys2Proof.Machine
end

section
/-!
The rules of the Link Controller's operations at one slot: what each leaves of that slot's link record and Caller Queue entry, and
that it touches no other slot's (`LocalTo`).
-/

namespace Sys2Proof.Machine

variable {s t u : State}

/-! ### Reads after a write -/

theorem link_mapLink_self {k : Nat} (hk : 1 ≤ k ∧ k ≤ 384) (f : LinkRetained → LinkRetained) : (s.mapLink k f).link k = f (s.link k) := by
  rw [link_mapLink, if_pos ⟨rfl, hk⟩]

theorem link_mapLink_ne {j k : Nat} (h : j ≠ k) (f : LinkRetained → LinkRetained) : (s.mapLink k f).link j = s.link j := by
  rw [link_mapLink, if_neg fun hj => h hj.1]

theorem linkVol_mapLinkVol_self {k : Nat} (hk : 1 ≤ k ∧ k ≤ 384) (f : LinkVolatile → LinkVolatile) :
    (s.mapLinkVol k f).linkVol k = f (s.linkVol k) := by
  rw [linkVol_mapLinkVol, if_pos ⟨rfl, hk⟩]

theorem linkVol_mapLinkVol_ne {j k : Nat} (h : j ≠ k) (f : LinkVolatile → LinkVolatile) :
    (s.mapLinkVol k f).linkVol j = s.linkVol j := by
  rw [linkVol_mapLinkVol, if_neg fun hj => h hj.1]

@[simp] theorem link_mapLinkVol (s : State) (k : Nat) (f : LinkVolatile → LinkVolatile) (j : Nat) :
    (s.mapLinkVol k f).link j = s.link j := rfl

@[simp] theorem linkVol_mapLink (s : State) (k : Nat) (f : LinkRetained → LinkRetained) (j : Nat) :
    (s.mapLink k f).linkVol j = s.linkVol j := rfl

@[simp] theorem link_hand (s : State) (r : Report) (j : Nat) : (s.hand r).link j = s.link j := link_congr (by rw [State.hand_ret]) j

@[simp] theorem linkVol_hand (s : State) (r : Report) (j : Nat) : (s.hand r).linkVol j = s.linkVol j :=
  linkVol_congr (by rw [State.hand_lc]) j

@[simp] theorem linkVol_release (s : State) (k j : Nat) : (s.release k).linkVol j = s.linkVol j :=
  linkVol_congr (by rw [release_lc]) j

@[simp] theorem link_dropProbe (s : State) (k j : Nat) : (s.dropProbe k).link j = s.link j :=
  link_congr (by rw [dropProbe_ret]) j

@[simp] theorem link_setCallers (s : State) (cs : List Caller) (j : Nat) : (s.setCallers cs).link j = s.link j := rfl

@[simp] theorem linkVol_setCallers (s : State) (cs : List Caller) (j : Nat) : (s.setCallers cs).linkVol j = s.linkVol j := rfl

/-- A slot outside the tables has no progress. -/
theorem slot_range_of_progress {k : Nat} {p : Progress} (h : (s.linkVol k).progress = some p) : 1 ≤ k ∧ k ≤ 384 := by
  by_contra hk
  have hout : s.linkVol k = {} := by simp [State.linkVol, mt slotPos_lt.1 hk]
  rw [hout] at h
  cases h

/-! ### Changes at one slot -/

/-- The Caller Queue entries of every other slot. -/
def State.otherCallers (s : State) (k : Nat) : List Caller := s.lc.callers.filter fun c => c.slot != k

/-- A change of calendar, links, Link Controller and Report Unit alone, that leaves every other slot's link record and Caller Queue
entry as they are. -/
structure LocalTo (k : Nat) (s t : State) : Prop where
  frame : t = { s with ret := { s.ret with calendar := t.ret.calendar, links := t.ret.links }, lc := t.lc, ru := t.ru }
  link : ∀ j, j ≠ k → t.link j = s.link j
  linkVol : ∀ j, j ≠ k → t.linkVol j = s.linkVol j
  callers : t.otherCallers k = s.otherCallers k

namespace LocalTo

variable {k : Nat}

theorem refl (k : Nat) (s : State) : LocalTo k s s := ⟨rfl, fun _ _ => rfl, fun _ _ => rfl, rfl⟩

theorem trans (h : LocalTo k s t) (g : LocalTo k t u) : LocalTo k s u where
  frame := by rw [g.frame, h.frame]
  link j hj := (g.link j hj).trans (h.link j hj)
  linkVol j hj := (g.linkVol j hj).trans (h.linkVol j hj)
  callers := g.callers.trans h.callers

theorem fp (h : LocalTo k s t) : t.fp = s.fp := by rw [h.frame]

theorem config (h : LocalTo k s t) : t.ret.config = s.ret.config := by rw [h.frame]

theorem clock (h : LocalTo k s t) : t.ret.clock = s.ret.clock := by rw [h.frame]

theorem accounts (h : LocalTo k s t) : t.ret.accounts = s.ret.accounts := by rw [h.frame]

theorem plans (h : LocalTo k s t) : t.ret.plans = s.ret.plans := by rw [h.frame]

/-- The entries of another slot are as they were. -/
theorem callersAt (h : LocalTo k s t) {j : Nat} (hj : j ≠ k) :
    t.lc.callers.filter (fun c => c.slot == j) = s.lc.callers.filter fun c => c.slot == j := by
  have hothers (l : List Caller) : (l.filter fun c => c.slot != k).filter (fun c => c.slot == j) = l.filter fun c => c.slot == j := by
    rw [List.filter_filter]
    congr 1
    funext c
    by_cases hc : c.slot = j <;> simp [hc, hj]
  rw [← hothers, ← hothers s.lc.callers]
  exact congrArg _ h.callers

/-- Records handed over alike in both states leave the Report Unit alike. -/
theorem hand_ru (h : LocalTo k s t) (hru : t.ru = s.ru) (r : Report) : (t.hand r).ru = (s.hand r).ru := by
  rw [hand_eq (s := s) (t := t) ⟨hru, by rw [h.fp], h.clock⟩]

end LocalTo

theorem localTo_mapLink (s : State) (k : Nat) (f : LinkRetained → LinkRetained) : LocalTo k s (s.mapLink k f) :=
  ⟨rfl, fun _ hj => link_mapLink_ne hj f, fun _ _ => rfl, rfl⟩

theorem localTo_mapLinkVol (s : State) (k : Nat) (f : LinkVolatile → LinkVolatile) : LocalTo k s (s.mapLinkVol k f) :=
  ⟨rfl, fun _ _ => rfl, fun _ hj => linkVol_mapLinkVol_ne hj f, rfl⟩

theorem localTo_hand (k : Nat) (s : State) (r : Report) : LocalTo k s (s.hand r) where
  frame := by
    have h : s.hand r = _ := sameButReports_hand s r
    rw [h]
  link j _ := link_hand s r j
  linkVol j _ := linkVol_hand s r j
  callers := by rw [State.otherCallers, State.hand_lc]; rfl

theorem localTo_release (s : State) (k : Nat) : LocalTo k s (s.release k) where
  frame := by rw [release_frame]
  link j hj := by rw [link_release, if_neg hj]
  linkVol j _ := linkVol_release s k j
  callers := by rw [State.otherCallers, release_lc]; rfl

theorem localTo_leaveQueue (s : State) (k : Nat) : LocalTo k s (s.leaveQueue k) := by
  have hcallers : LocalTo k s (s.setCallers (s.lc.callers.filter fun c => c.slot != k)) :=
    ⟨rfl, fun _ _ => rfl, fun _ _ => rfl, by simp [State.otherCallers, State.setCallers]⟩
  exact (hcallers.trans (localTo_mapLinkVol _ k _)).trans (localTo_mapLink _ k _)

theorem localTo_dropProbe (s : State) (k : Nat) : LocalTo k s (s.dropProbe k) where
  frame := by rw [dropProbe_frame]
  link j _ := link_dropProbe s k j
  linkVol j hj := by rw [linkVol_dropProbe, if_neg hj]
  callers := by rw [State.otherCallers, dropProbe_callers]; rfl

theorem localTo_quitBringup (s : State) (k : Nat) : LocalTo k s (s.quitBringup k) := by
  unfold State.quitBringup
  split
  · exact (localTo_release s k).trans (localTo_mapLink _ k _)
  · exact .refl k s
  · exact .refl k s
  · exact .refl k s

theorem localTo_oweDecline (s : State) (k : Nat) (cause : FailCause) : LocalTo k s (s.oweDecline k cause) := by
  unfold State.oweDecline
  split
  · exact localTo_mapLinkVol s k _
  · exact localTo_mapLinkVol s k _
  · exact localTo_leaveQueue s k
  · exact localTo_leaveQueue s k

theorem localTo_failBringup (s : State) (k : Nat) (cause : FailCause) : LocalTo k s (s.failBringup k cause) :=
  (((localTo_quitBringup s k).trans (localTo_mapLinkVol _ k _)).trans (localTo_hand k _ _)).trans (localTo_oweDecline _ k cause)

/-! ### Leaving the queue (R136, R139) -/

@[simp] theorem callers_leaveQueue (s : State) (k : Nat) : (s.leaveQueue k).lc.callers = s.otherCallers k := rfl

theorem linkVol_leaveQueue {k : Nat} (hk : 1 ≤ k ∧ k ≤ 384) (s : State) :
    (s.leaveQueue k).linkVol k = (s.linkVol k).clearBringup := by
  rw [State.leaveQueue, linkVol_mapLink, linkVol_mapLinkVol_self hk, linkVol_setCallers]

theorem link_leaveQueue {k : Nat} (hk : 1 ≤ k ∧ k ≤ 384) (s : State) : (s.leaveQueue k).link k = (s.link k).dropAbsentKit := by
  rw [State.leaveQueue, link_mapLink_self hk, link_mapLinkVol, link_setCallers]

@[simp] theorem leaveQueue_ru (s : State) (k : Nat) : (s.leaveQueue k).ru = s.ru := rfl

@[simp] theorem leaveQueue_calendar (s : State) (k : Nat) : (s.leaveQueue k).ret.calendar = s.ret.calendar := rfl

@[simp] theorem leaveQueue_exchange (s : State) (k : Nat) : (s.leaveQueue k).lc.exchange = s.lc.exchange := rfl

/-! ### Bring-up failure (R150) -/

/-- The retained link record after steps 1 and 2 of a failure (R150). -/
def LinkRetained.quit (l : LinkRetained) : LinkRetained :=
  match l.state with
  | .bringup _ => { l with state := .absent, placement := none }
  | .absent | .bound | .silent => l

theorem quitBringup_lc (s : State) (k : Nat) : (s.quitBringup k).lc = s.lc := by
  unfold State.quitBringup
  split
  · exact release_lc s k
  all_goals rfl

theorem linkVol_quitBringup (s : State) (k j : Nat) : (s.quitBringup k).linkVol j = s.linkVol j :=
  linkVol_congr (by rw [quitBringup_lc]) j

theorem quitBringup_ru (s : State) (k : Nat) : (s.quitBringup k).ru = s.ru := by
  unfold State.quitBringup
  split
  · change (s.release k).ru = s.ru
    rw [release_frame]
  all_goals rfl

theorem link_quitBringup {k : Nat} (hk : 1 ≤ k ∧ k ≤ 384) (s : State) : (s.quitBringup k).link k = (s.link k).quit := by
  unfold State.quitBringup LinkRetained.quit
  cases h : (s.link k).state <;> simp [link_mapLink_self hk, link_release]

theorem quitBringup_calendar {k : Nat} (s : State) (h : (s.link k).placement = none) :
    (s.quitBringup k).ret.calendar = s.ret.calendar := by
  unfold State.quitBringup
  split
  · change (s.release k).ret.calendar = _
    simp only [State.release, h]
  all_goals rfl

/-- The advisory of a failure (R150). -/
def State.failAdvisory (s : State) (k : Nat) (cause : FailCause) : Report :=
  ⟨0, k, .link ((s.link k).kitId.getD 0) (.bringupFailed cause ((s.linkVol k).progress.getD .waiting) (s.linkVol k).mismatches)⟩

/-- The volatile link record after a failure whose DECLINE is owed (R150). -/
def LinkVolatile.declining (v : LinkVolatile) (cause : FailCause) : LinkVolatile :=
  { v with progress := some .declining, declineCause := some cause, declineAge := 0, page1 := none, page2 := none, mismatches := 0 }

/-- The state in which a failure's DECLINE is owed or its entry leaves (R150, steps 1 to 4). -/
def State.failedBringup (s : State) (k : Nat) (cause : FailCause) : State :=
  ((s.quitBringup k).dropPages k).hand (s.failAdvisory k cause)

theorem failBringup_eq (s : State) (k : Nat) (cause : FailCause) :
    s.failBringup k cause = (s.failedBringup k cause).oweDecline k cause := rfl

theorem link_failedBringup {k : Nat} (hk : 1 ≤ k ∧ k ≤ 384) (s : State) (cause : FailCause) :
    (s.failedBringup k cause).link k = (s.link k).quit := by
  rw [State.failedBringup, link_hand]
  exact link_quitBringup hk s

theorem linkVol_failedBringup {k : Nat} (hk : 1 ≤ k ∧ k ≤ 384) (s : State) (cause : FailCause) :
    (s.failedBringup k cause).linkVol k = { s.linkVol k with page1 := none, page2 := none, mismatches := 0 } := by
  rw [State.failedBringup, linkVol_hand, State.dropPages, linkVol_mapLinkVol_self hk, linkVol_quitBringup]

theorem failedBringup_lc (s : State) (k : Nat) (cause : FailCause) :
    (s.failedBringup k cause).lc = { s.lc with links := (s.failedBringup k cause).lc.links } := by
  rw [State.failedBringup, State.hand_lc]
  rw [← quitBringup_lc s k]
  rfl

theorem failBringup_calendar {k : Nat} {cause : FailCause} (h : (s.link k).placement = none) :
    (s.failBringup k cause).ret.calendar = s.ret.calendar := by
  have howe (t : State) : (t.oweDecline k cause).ret.calendar = t.ret.calendar := by cases cause <;> rfl
  rw [failBringup_eq, howe, State.failedBringup, State.hand_ret]
  exact quitBringup_calendar s h

theorem failBringup_ru (s : State) (k : Nat) (cause : FailCause) :
    (s.failBringup k cause).ru = (s.hand (s.failAdvisory k cause)).ru := by
  have hlocal : LocalTo k s ((s.quitBringup k).dropPages k) := (localTo_quitBringup s k).trans (localTo_mapLinkVol _ k _)
  have howe (t : State) : (t.oweDecline k cause).ru = t.ru := by cases cause <;> rfl
  rw [State.failBringup, howe]
  exact hlocal.hand_ru (quitBringup_ru s k) _

/-- A failure whose DECLINE is owed leaves the entry queued and DECLINING (R150). -/
theorem failBringup_timeout {k : Nat} (hk : 1 ≤ k ∧ k ≤ 384) {cause : FailCause} (hcause : cause = .consistency ∨ cause = .timeout)
    (s : State) :
    (s.failBringup k cause).link k = (s.link k).quit ∧ (s.failBringup k cause).linkVol k = (s.linkVol k).declining cause ∧
      (s.failBringup k cause).lc.callers = s.lc.callers ∧ (s.failBringup k cause).lc.exchange = s.lc.exchange := by
  have howe : s.failBringup k cause = (s.failedBringup k cause).mapLinkVol k fun v =>
      { v with progress := some .declining, declineCause := some cause, declineAge := 0 } := by
    rcases hcause with rfl | rfl <;> rfl
  have hcallers : (s.failedBringup k cause).lc.callers = s.lc.callers := by rw [failedBringup_lc]
  have hexchange : (s.failedBringup k cause).lc.exchange = s.lc.exchange := by rw [failedBringup_lc]
  rw [howe, linkVol_mapLinkVol_self hk, linkVol_failedBringup hk, link_mapLinkVol, link_failedBringup hk]
  exact ⟨rfl, rfl, hcallers, hexchange⟩

/-- A failure without a DECLINE takes the entry from the queue (R150). -/
theorem failBringup_left {k : Nat} (hk : 1 ≤ k ∧ k ≤ 384) {cause : FailCause} (hcause : cause = .calendarFull ∨ cause = .accountState)
    (s : State) :
    (s.failBringup k cause).link k = (s.link k).quit.dropAbsentKit ∧
      (s.failBringup k cause).linkVol k = (s.linkVol k).clearBringup ∧
      (s.failBringup k cause).lc.callers = s.otherCallers k ∧ (s.failBringup k cause).lc.exchange = s.lc.exchange := by
  have howe : s.failBringup k cause = (s.failedBringup k cause).leaveQueue k := by
    rcases hcause with rfl | rfl <;> rfl
  have hcallers : (s.failedBringup k cause).lc.callers = s.lc.callers := by rw [failedBringup_lc]
  have hexchange : (s.failedBringup k cause).lc.exchange = s.lc.exchange := by rw [failedBringup_lc]
  rw [howe, link_leaveQueue hk, linkVol_leaveQueue hk, linkVol_failedBringup hk, link_failedBringup hk, callers_leaveQueue,
    leaveQueue_exchange]
  exact ⟨rfl, rfl, congrArg (List.filter fun c : Caller => c.slot != k) hcallers, hexchange⟩

end Sys2Proof.Machine
end

section
/-!
The field timer (R102, R103, R105, R118, R120) and the Link Controller at a cycle start (R133, R149 to R151).
-/

namespace Sys2Proof.Machine

variable {s t : State}

/-! ### Slot ends -/

/-- The Field Port when a slot has ended with nothing in reception and no window open (R104). -/
def FieldPort.ended (fp : FieldPort) : FieldPort := { fp with window := .closed, recordMade := false, downlink := .silent }

theorem endSlot_quiet (hreception : s.fp.reception = none) (hwindow : s.fp.window = .closed) (cut : List Block) :
    s.endSlot cut = { s with fp := s.fp.ended } := by
  unfold State.endSlot
  split
  · next h => rw [hreception] at h; cases h
  · rw [if_pos hwindow]
    rfl

theorem slotStart_eq {p : Place} (hpower : s.powered = true) (hbusy : s.fp.busy = false)
    (hnext : s.fp.place.nextSlot s.ret.active.contentionCount = some p) (cut : List Block) :
    exec (.slotStart cut) s = .next ((s.endSlot cut).beginSlot p) := by
  change execSlotStart cut s = _
  simp only [execSlotStart, hnext, hpower, hbusy, Bool.not_false, Bool.and_self, if_true]

/-- The state in which a slot's use begins (R102, R118, R120). -/
def State.slotBegun (s : State) (p : Place) : State := (s.setFp { s.fp with place := p }).evalMode.noteQuiet

theorem beginSlot_beacon (s : State) : s.beginSlot .beacon =
    if (s.slotBegun .beacon).fp.effective = .quiet then
      (s.slotBegun .beacon).setFp { (s.slotBegun .beacon).fp with status := .unclaimed }
    else (s.slotBegun .beacon).setFp { (s.slotBegun .beacon).fp with downlink := .dominance (s.slotBegun .beacon).fp.dominanceWord } :=
  rfl

theorem beginSlot_contention (s : State) (n : Nat) : s.beginSlot (.contention n) = s.slotBegun (.contention n) := rfl

theorem beginSlot_data (s : State) (n : Nat) : s.beginSlot (.data n) = (s.slotBegun (.data n)).useDataSlot n := rfl

/-- The effective mode as R118 states it. -/
theorem effectiveMode_eq (id : Nat) (escalated : Bool) (requested : Mode) : effectiveMode id escalated requested =
    if id = 0 then .quiet else if escalated = true ∧ requested = .run then .drain else requested := by
  simp only [effectiveMode, Bool.and_eq_true, beq_iff_eq]

/-! ### Cycle starts -/

/-- The Field Port when a cycle has begun (R103, R110). -/
def State.begunPort (s : State) : FieldPort :=
  { s.fp with
    shadow := none, cycle := (s.fp.cycle + 1) % 65536, cycleDay := if s.ret.clock.isSet then s.ret.clock.day else 0
    status := .pending, callsOpen := false, quieted := false, place := .cycleBegun, idInEffect := s.ret.nodeId
    rankInEffect := s.ret.rank, effective := effectiveMode s.ret.nodeId s.ru.escalated s.ret.requested }

theorem beginCycle_eq (s : State) :
    s.beginCycle = { s with ret := { s.ret with active := s.fp.shadow.getD s.ret.active }, fp := s.begunPort } := by
  obtain ⟨powered, valid, ret, tp, ru, lc, ⟨shadow, effective, id, rank, cycle, day, status, history, calls, place, downlink, window, made,
    quieted, reception⟩, counters, pending, free⟩ := s
  cases shadow <;> rfl

/-- A cycle start where one is due, with nothing in reception (R103). -/
theorem cycleStart_eq (hpower : s.powered = true) (hbusy : s.fp.busy = false) (hreception : s.fp.reception = none)
    (hwindow : s.fp.window = .closed)
    (hplace : s.fp.place = .started ∨ s.fp.place = .gap ∨ s.fp.place = .data 23 ∧ s.ret.active.gap = 0) (cut : List Block) :
    exec (.cycleStart cut) s = .next (State.beginCycle { s with fp := s.fp.ended }).linkCycleStart := by
  have hdue : s.cycleStartDue = true := by
    rcases hplace with h | h | ⟨h, hgap⟩ <;> simp [State.cycleStartDue, *]
  change execCycleStart cut s = _
  rw [execCycleStart, if_pos hdue, endSlot_quiet hreception hwindow]

/-! ### The Link Controller at a cycle start -/

theorem localTo_ageDecline (s : State) (c : Caller) : LocalTo c.slot s (s.ageDecline c) := by
  unfold State.ageDecline
  split
  · split
    · exact localTo_leaveQueue s c.slot
    · exact localTo_mapLinkVol s c.slot _
  · exact .refl _ s

theorem localTo_timeBringup (s : State) (c : Caller) : LocalTo c.slot s (s.timeBringup c) := by
  unfold State.timeBringup
  split
  · split
    · exact localTo_failBringup s c.slot .timeout
    · exact .refl _ s
  · exact .refl _ s

/-- What a run over the entries of other slots leaves as it was. -/
structure SameAt (k : Nat) (s t : State) : Prop where
  frame : t = { s with ret := { s.ret with calendar := t.ret.calendar, links := t.ret.links }, lc := t.lc, ru := t.ru }
  link : t.link k = s.link k
  linkVol : t.linkVol k = s.linkVol k
  callers : (t.lc.callers.filter fun c => c.slot == k) = s.lc.callers.filter fun c => c.slot == k

namespace SameAt

variable {k : Nat} {u : State}

theorem refl (k : Nat) (s : State) : SameAt k s s := ⟨rfl, rfl, rfl, rfl⟩

theorem trans (h : SameAt k s t) (g : SameAt k t u) : SameAt k s u :=
  ⟨by rw [g.frame, h.frame], g.link.trans h.link, g.linkVol.trans h.linkVol, g.callers.trans h.callers⟩

theorem fp (h : SameAt k s t) : t.fp = s.fp := by rw [h.frame]

theorem config (h : SameAt k s t) : t.ret.config = s.ret.config := by rw [h.frame]

end SameAt

theorem LocalTo.sameAt {j k : Nat} (h : LocalTo j s t) (hk : k ≠ j) : SameAt k s t :=
  ⟨h.frame, h.link k hk, h.linkVol k hk, h.callersAt hk⟩

/-- A run over entries none of which is the slot's leaves the slot as it was. -/
theorem sameAt_foldl_none {k : Nat} {f : State → Caller → State} (hf : ∀ s c, LocalTo c.slot s (f s c)) {l : List Caller}
    (hl : l.filter (fun c => c.slot == k) = []) (s : State) : SameAt k s (l.foldl f s) := by
  induction l generalizing s with
  | nil => exact .refl k s
  | cons d l ih =>
    rw [List.filter_cons] at hl
    split at hl
    · cases hl
    · next hd => exact ((hf s d).sameAt fun hk => hd (by simp [hk])).trans (ih hl _)

/-- A run over entries of which one is the slot's does to the slot what that entry's turn does. -/
theorem sameAt_foldl {k : Nat} {f : State → Caller → State} (hf : ∀ s c, LocalTo c.slot s (f s c)) {l : List Caller} {c : Caller}
    (hl : l.filter (fun c => c.slot == k) = [c]) (s : State) : ∃ t, SameAt k s t ∧ SameAt k (f t c) (l.foldl f s) := by
  induction l generalizing s with
  | nil => cases hl
  | cons d l ih =>
    rw [List.filter_cons] at hl
    split at hl
    · obtain ⟨rfl, hrest⟩ := List.cons_eq_cons.1 hl
      exact ⟨s, .refl k s, sameAt_foldl_none hf hrest _⟩
    · next hd =>
      obtain ⟨t, hbefore, hafter⟩ := ih hl (f s d)
      exact ⟨t, ((hf s d).sameAt fun hk => hd (by simp [hk])).trans hbefore, hafter⟩

theorem foldl_frame {f : State → Caller → State} (hf : ∀ s c, LocalTo c.slot s (f s c)) (l : List Caller) (s : State) :
    l.foldl f s = { s with
      ret := { s.ret with calendar := (l.foldl f s).ret.calendar, links := (l.foldl f s).ret.links }
      lc := (l.foldl f s).lc
      ru := (l.foldl f s).ru } := by
  induction l generalizing s with
  | nil => rfl
  | cons c l ih =>
    rw [List.foldl_cons, ih (f s c), (hf s c).frame]

theorem linkCycleStart_frame (s : State) : s.linkCycleStart = { s with
    ret := { s.ret with calendar := s.linkCycleStart.ret.calendar, links := s.linkCycleStart.ret.links }
    lc := s.linkCycleStart.lc
    ru := s.linkCycleStart.ru } := by
  unfold State.linkCycleStart
  rw [foldl_frame localTo_timeBringup, foldl_frame localTo_ageDecline]
  rfl

theorem caller_of_filter {k : Nat} {c : Caller} {cs : List Caller}
    (h : (s.lc.callers.filter fun d => d.slot == k) = c :: cs) : s.caller k = some c := by
  rw [State.caller, ← List.head?_filter, h, List.head?_cons]

theorem caller_of_filter_nil {k : Nat} (h : (s.lc.callers.filter fun d => d.slot == k) = []) : s.caller k = none := by
  rw [State.caller, ← List.head?_filter, h, List.head?_nil]

/-- What the cycle start does to a slot with one entry (R133, R149, R151): that entry is aged, then, if it is still queued, timed. -/
theorem linkCycleStart_at {c : Caller} (hc : (s.lc.callers.filter fun d => d.slot == c.slot) = [c]) :
    let c' := { c with mark := false }
    let unmarked := s.setCallers (s.lc.callers.map fun d => { d with mark := false })
    ∃ t, SameAt c.slot unmarked t ∧ (t.lc.callers.filter fun d => d.slot == c.slot) = [c'] ∧
      (((t.ageDecline c').lc.callers.filter fun d => d.slot == c.slot) = [] →
        SameAt c.slot (t.ageDecline c') s.linkCycleStart) ∧
      (((t.ageDecline c').lc.callers.filter fun d => d.slot == c.slot) = [c'] →
        ∃ u, SameAt c.slot (t.ageDecline c') u ∧ SameAt c.slot (u.timeBringup c') s.linkCycleStart) := by
  intro c' unmarked
  have hone : (unmarked.lc.callers.filter fun d => d.slot == c'.slot) = [c'] := by
    change (s.lc.callers.map fun d => { d with mark := false }).filter _ = _
    rw [List.filter_map]
    exact congrArg (List.map fun d => { d with mark := false }) hc
  obtain ⟨t, ht, haged⟩ := sameAt_foldl localTo_ageDecline hone unmarked
  refine ⟨t, ht, ht.callers.trans hone, fun hnone => ?_, fun hstill => ?_⟩
  · exact haged.trans (sameAt_foldl_none localTo_timeBringup (haged.callers.trans hnone) _)
  · obtain ⟨u, hu, htimed⟩ := sameAt_foldl localTo_timeBringup (haged.callers.trans hstill) _
    exact ⟨u, haged.trans hu, htimed⟩

theorem ageDecline_of_ne {c : Caller} (h : (s.linkVol c.slot).progress ≠ some .declining) : s.ageDecline c = s := if_neg h

theorem timeBringup_declining {c : Caller} (h : (s.linkVol c.slot).progress = some .declining) : s.timeBringup c = s := by
  unfold State.timeBringup
  split
  · next start progress hstart hprogress =>
    rw [h] at hprogress
    cases hprogress
    exact if_neg fun h => h.1 rfl
  · rfl

/-- An entry whose bring-up has run its limit fails (R149). -/
theorem timeBringup_late {c : Caller} {start : Nat} {p : Progress} (hstart : c.startCycle = some start)
    (hp : (s.linkVol c.slot).progress = some p) (hne : p ≠ .declining)
    (hlate : s.ret.config.bringupLimit ≤ (s.fp.cycle + 65536 - start) % 65536) : s.timeBringup c = s.failBringup c.slot .timeout := by
  simp only [State.timeBringup, hstart, hp]
  exact if_pos ⟨hne, hlate⟩

theorem timeBringup_early {c : Caller}
    (h : ∀ start, c.startCycle = some start → (s.fp.cycle + 65536 - start) % 65536 < s.ret.config.bringupLimit) : s.timeBringup c = s := by
  unfold State.timeBringup
  split
  · next start progress hstart hprogress => exact if_neg fun hlate => absurd (h start hstart) (Nat.not_lt.2 hlate.2)
  · rfl

/-- A cycle start with one entry in the queue, not DECLINING. -/
theorem linkCycleStart_alone {c : Caller} (hc : s.lc.callers = [c]) (h : (s.linkVol c.slot).progress ≠ some .declining) :
    s.linkCycleStart =
      (s.setCallers [{ c with mark := false }]).timeBringup { c with mark := false } := by
  have hunmarked : s.setCallers (s.lc.callers.map fun d => { d with mark := false }) =
      s.setCallers [{ c with mark := false }] := by rw [hc]; rfl
  have haged : [{ c with mark := false }].foldl State.ageDecline (s.setCallers [{ c with mark := false }]) =
      s.setCallers [{ c with mark := false }] := ageDecline_of_ne h
  unfold State.linkCycleStart
  rw [hunmarked]
  change (List.foldl State.ageDecline (s.setCallers [_]) [_]).lc.callers.foldl State.timeBringup
    (List.foldl State.ageDecline (s.setCallers [_]) [_]) = _
  rw [haged]
  rfl

/-- Settles O47: the slot's end, then the start of the cycle, slot or gap. -/
theorem fieldTimerRunsCycle : Obligations.FieldTimerRunsCycle := by
  intro s cut hpower hbusy hreception hwindow evaluated count mode at_
  have hmode (id : Nat) : effectiveMode id s.ru.escalated s.ret.requested = evaluated id := effectiveMode_eq ..
  have hend := endSlot_quiet hreception hwindow cut
  have hat (p : Place) : State.slotBegun { s with fp := s.fp.ended } p = at_ p := by
    simp only [State.slotBegun, State.evalMode, State.noteQuiet, State.setFp, FieldPort.ended, hmode]
    rfl
  have hslot {p : Place} (hnext : s.fp.place.nextSlot s.ret.active.contentionCount = some p) :
      exec (.slotStart cut) s = .next (State.beginSlot { s with fp := s.fp.ended } p) := by
    rw [slotStart_eq hpower hbusy hnext, hend]
  have hdata (n : Nat) (hunused : s.fp.status ≠ .claimed ∨ mode = .quiet) :
      State.beginSlot { s with fp := s.fp.ended } (.data n) = at_ (.data n) := by
    rw [beginSlot_data, hat]
    exact if_neg fun h => hunused.elim (fun hs => hs h.1) fun hq => h.2 hq
  have hbeacon : State.beginSlot { s with fp := s.fp.ended } .beacon =
      if mode = .quiet then { at_ .beacon with fp := { (at_ .beacon).fp with status := .unclaimed } }
      else { at_ .beacon with fp := { (at_ .beacon).fp with downlink := .dominance s.fp.dominanceWord } } := by
    rw [beginSlot_beacon, hat]
    rfl
  have hcontention (n : Nat) : State.beginSlot { s with fp := s.fp.ended } (.contention n) = at_ (.contention n) := by
    rw [beginSlot_contention, hat]
  refine ⟨fun hplace => ?_, fun hplace hquiet => ?_, fun hplace hloud => ?_, fun hplace hcount => ?_, fun n hplace hcount => ?_,
    fun hunused => ⟨fun n hplace hcount => ?_, fun n hplace hn => ?_⟩, fun hplace hgap => ?_⟩
  · refine ⟨_, cycleStart_eq hpower hbusy hreception hwindow hplace cut, ?_⟩
    rw [linkCycleStart_frame, beginCycle_eq]
    rw [← hmode s.ret.nodeId]
    exact ⟨rfl, rfl, rfl, rfl⟩
  · rw [hslot (p := .beacon) (by rw [hplace]; rfl), hbeacon, if_pos hquiet]
  · rw [hslot (p := .beacon) (by rw [hplace]; rfl), hbeacon, if_neg hloud]
    rfl
  · rw [hslot (p := .contention 0) (by rw [hplace]; exact congrArg some (if_pos hcount)), hcontention]
  · rw [hslot (p := .contention (n + 1)) (by rw [hplace]; exact congrArg some (if_pos hcount)), hcontention]
  · rw [hslot (p := .data 0) (by rw [hplace]; exact congrArg some (if_neg (Nat.not_lt.2 hcount))), hdata 0 hunused]
  · rw [hslot (p := .data (n + 1)) (by rw [hplace]; exact if_pos hn), hdata _ hunused]
  · change execGapStart cut s = _
    rw [execGapStart, hend, if_pos (by simp [*])]
    rfl

/-- Settles O48: the entries of other slots leave the slot alone, and its own entry is aged and then timed. -/
theorem cycleStartTimesBringups : Obligations.CycleStartTimesBringups := by
  intro s cut c hpower hbusy hreception hwindow hplace hc v l elapsed
  generalize hu : State.beginCycle { s with fp := s.fp.ended } = u
  have hbegun : u = { s with ret := u.ret, fp := u.fp } := by rw [← hu, beginCycle_eq]
  have hlinks : u.ret.links = s.ret.links := by rw [← hu, beginCycle_eq]
  have hconfig : u.ret.config = s.ret.config := by rw [← hu, beginCycle_eq]
  have hclock : u.ret.clock = s.ret.clock := by rw [← hu, beginCycle_eq]
  have hcycle : u.fp.cycle = (s.fp.cycle + 1) % 65536 := by rw [← hu, beginCycle_eq]; rfl
  have hlc : u.lc = s.lc := by rw [hbegun]
  have hru : u.ru = s.ru := by rw [hbegun]
  have huv : u.linkVol c.slot = v := linkVol_congr (by rw [hlc]) _
  have hul : u.link c.slot = l := link_congr hlinks _
  refine ⟨u.linkCycleStart, by rw [cycleStart_eq hpower hbusy hreception hwindow hplace cut, hu], ?_⟩
  obtain ⟨t, ht, htc, hgone, hstill⟩ := linkCycleStart_at (s := u) (c := c) (by rw [hlc]; exact hc)
  have htv : t.linkVol c.slot = v := ht.linkVol.trans huv
  have htl : t.link c.slot = l := ht.link.trans hul
  refine ⟨fun hprogress hage => ?_, fun hprogress hage => ?_, fun progress hprogress hne => ⟨fun start hstart hlate => ?_, fun hearly => ?_⟩⟩
  · have hk : 1 ≤ c.slot ∧ c.slot ≤ 384 := slot_range_of_progress (s := s) hprogress
    have hleft : t.ageDecline { c with mark := false } = t.leaveQueue c.slot := by
      simp only [State.ageDecline, htv, hprogress, if_true, if_pos hage]
    rw [hleft] at hgone
    have hnone : ((t.leaveQueue c.slot).lc.callers.filter fun d => d.slot == c.slot) = [] := by
      simp [State.otherCallers]
    have hsame := hgone hnone
    refine ⟨caller_of_filter_nil (hsame.callers.trans hnone), ?_⟩
    rw [hsame.linkVol, linkVol_leaveQueue hk]
    rfl
  · have hk : 1 ≤ c.slot ∧ c.slot ≤ 384 := slot_range_of_progress (s := s) hprogress
    have haged : t.ageDecline { c with mark := false } = t.mapLinkVol c.slot fun v => { v with declineAge := v.declineAge + 1 } := by
      simp only [State.ageDecline, htv, hprogress, if_true, hage]
      rfl
    rw [haged] at hstill
    obtain ⟨w, hw, hsame⟩ := hstill htc
    have hwv : w.linkVol c.slot = { v with declineAge := 1 } := by
      rw [hw.linkVol, linkVol_mapLinkVol_self hk, htv, hage]
    rw [timeBringup_declining (by rw [hwv]; exact hprogress)] at hsame
    exact ⟨caller_of_filter (hsame.callers.trans (hw.callers.trans htc)), hsame.linkVol.trans hwv,
      hsame.link.trans (hw.link.trans htl)⟩
  all_goals
    rw [ageDecline_of_ne (by rw [htv, hprogress]; simpa using hne)] at hstill
    obtain ⟨w, hw, hsame⟩ := hstill htc
    have hwt := ht.trans hw
    have hwv : w.linkVol c.slot = v := hwt.linkVol.trans huv
    have hwl : w.link c.slot = l := hwt.link.trans hul
    have hwc := hw.callers.trans htc
    have hwcycle : w.fp.cycle = (s.fp.cycle + 1) % 65536 := by rw [hwt.fp]; exact hcycle
    have hwconfig : w.ret.config = s.ret.config := hwt.config.trans hconfig
  · have hk : 1 ≤ c.slot ∧ c.slot ≤ 384 := slot_range_of_progress (s := s) hprogress
    have hlimit (x : State) (hx : x.ret.config = s.ret.config) (hcy : x.fp.cycle = (s.fp.cycle + 1) % 65536) :
        x.ret.config.bringupLimit ≤ (x.fp.cycle + 65536 - start) % 65536 := by rw [hx, hcy]; exact hlate
    have hfail := timeBringup_late (s := w) (c := { c with mark := false }) hstart ((congrArg _ hwv).trans hprogress) hne
      (hlimit w hwconfig hwcycle)
    obtain ⟨hflink, hfvol, hfcallers, -⟩ := failBringup_timeout hk (.inr rfl) w
    rw [hfail] at hsame
    have hfc := (congrArg (List.filter fun d : Caller => d.slot == c.slot) hfcallers).trans hwc
    refine ⟨caller_of_filter (hsame.callers.trans hfc), ?_, ?_, fun halone => ?_⟩
    · rw [hsame.linkVol, hfvol, hwv]
      rfl
    · rw [hsame.link, hflink, hwl]
      unfold LinkRetained.quit
      cases l.state <;> rfl
    · have hrun := linkCycleStart_alone (s := u) (by rw [hlc]; exact halone) (by rw [huv, hprogress]; simpa using hne)
      have hx : ReportsAlike { s with fp := u.fp } (u.setCallers [{ c with mark := false }]) := ⟨hru, rfl, hclock⟩
      have hxv : (u.setCallers [{ c with mark := false }]).linkVol c.slot = v := huv
      have hxl : (u.setCallers [{ c with mark := false }]).link c.slot = l := hul
      have hxlimit := hlimit (u.setCallers [{ c with mark := false }]) hconfig hcycle
      generalize u.setCallers [{ c with mark := false }] = x at *
      rw [timeBringup_late (s := x) (c := { c with mark := false }) hstart ((congrArg _ hxv).trans hprogress) hne hxlimit] at hrun
      have hadvisory : x.failAdvisory c.slot .timeout =
          ⟨0, c.slot, .link (l.kitId.getD 0) (.bringupFailed .timeout progress v.mismatches)⟩ := by
        rw [State.failAdvisory, hxl, hxv, hprogress]
        rfl
      have hfp : u.linkCycleStart.fp = u.fp := by rw [linkCycleStart_frame]
      rw [hfp, hrun, failBringup_ru, hadvisory]
      rw [hand_eq hx]
  · rw [timeBringup_early (by rw [hwcycle, hwconfig]; exact hearly)] at hsame
    exact ⟨caller_of_filter (hsame.callers.trans hwc), hsame.linkVol.trans hwv, hsame.link.trans hwl⟩

end Sys2Proof.Machine
end

section
/-!
The poll request (R44, R45, R49, R50, R68), and the energy balance of a reconciliation (R54 to R62).
-/

namespace Sys2Proof.Machine

variable {s : State} {a : Account}

/-! ### The poll request -/

theorem expireRelay_eq (a : Account) (slot : Nat) : a.expireRelay slot =
    ({ a with relay := a.relay.filter fun r => decide (r.polled < 16) },
      match a.relay with
      | some r => if 16 ≤ r.polled then [deferredRefusal slot r.tag .relayExpired] else []
      | none => []) := by
  have hkept {relay : Option Relay} (h : relay = a.relay) : a = { a with relay := relay } := by rw [h]
  unfold Account.expireRelay
  cases h : a.relay with
  | none => exact congrArg (·, []) (hkept h.symm)
  | some r =>
    by_cases hr : 16 ≤ r.polled
    · simp [hr, Option.filter]
    · have hfilter : Option.filter (fun r => decide (r.polled < 16)) (some r) = a.relay := by simp [hr, h, Option.filter]
      simp only [if_neg hr]
      exact congrArg (·, []) (hkept hfilter)

theorem mayGrant_iff {p : Plan} {link : LinkState} {mode : Mode} : a.mayGrant p link mode = true ↔
    a.state = .active ∧ link = .bound ∧ mode = .run ∧ a.pendingGrant = none ∧ a.withdrawn = none ∧ a.allowance < p.lowWater ∧
      0 < a.balance := by
  simp only [Account.mayGrant, Bool.and_eq_true, beq_iff_eq, Option.isNone_iff_eq_none, decide_eq_true_eq, and_assoc]

theorem createGrant_granted {fig : Figures} {p : Plan} {l : LinkRetained} {mode : Mode} (h : l.figures = some fig)
    (hmay : a.mayGrant p l.state mode = true) : a.createGrant p l mode =
      let g := grantAmount a.balance p.dose (boost l.history p.boostLimit) fig.maxGrant
      { a with balance := a.balance - g, q := seqSucc a.q, pendingGrant := some ⟨seqSucc a.q, g, false⟩ } := by
  simp only [Account.createGrant, h, hmay, if_true]

theorem createGrant_kept {p : Plan} {l : LinkRetained} {mode : Mode} (hmay : ¬ a.mayGrant p l.state mode = true) :
    a.createGrant p l mode = a := by
  unfold Account.createGrant
  split
  · rfl
  · exact if_neg hmay

/-- Settles O43: the four steps of the poll request in order. -/
theorem pollRequestCreatesGrant : Obligations.PollRequestCreatesGrant := by
  intro s slot kitId
  refine ⟨fun hnone => ?_, fun a ha => ⟨fun hkit => ?_, fun p fig hkit hp hfig => ?_⟩⟩
  · simp only [State.pollRequest, hnone]
  · simp only [State.pollRequest, ha, if_neg hkit]
  · intro relay expired mayGrant misses g q carried counted
    have hrun : s.pollRequest slot kitId =
        let granted := Account.createGrant { a with relay := relay } p (s.link slot) s.fp.effective
        ((s.handAll expired).setAccount slot (some granted.countRelay), granted.instructionSet) := by
      simp only [State.pollRequest, ha, if_pos hkit, expireRelay_eq]
      rw [planOf_eq (a := { a with relay := relay }) hp] <;> rfl
    have hgranted (hmay : mayGrant) : Account.createGrant { a with relay := relay } p (s.link slot) s.fp.effective =
        { a with relay := relay, balance := a.balance - g, q := q, pendingGrant := some ⟨q, g, false⟩ } := by
      have hamount : grantAmount a.balance p.dose (boost (s.link slot).history p.boostLimit) fig.maxGrant = g := by
        simp only [grantAmount, boost, missCount, List.countP_eq_length_filter]
        rfl
      rw [createGrant_granted (a := { a with relay := relay }) hfig (mayGrant_iff.2 hmay), ← hamount]
      rfl
    have hkept (hmay : ¬ mayGrant) : Account.createGrant { a with relay := relay } p (s.link slot) s.fp.effective =
        { a with relay := relay } := createGrant_kept (mt mayGrant_iff.1 hmay)
    rw [hrun]
    refine ⟨fun hmay => ?_, fun hmay => ?_⟩
    · rw [hgranted hmay]
      rfl
    · rw [hkept hmay]
      rfl

end Sys2Proof.Machine
end

section
/-!
The six stages of a reconciliation (R54 to R63) in closed form, and its energy balance.
-/

namespace Sys2Proof.Machine

variable {r : Recon} {a : Account}

/-! ### Stage 1 (R55) -/

theorem addAllowance_le (G g : Nat) : addAllowance G g ≤ maxWh := by
  unfold addAllowance
  split
  · assumption
  · exact Nat.le_of_lt_succ (Nat.mod_lt _ (Nat.succ_pos maxWh))

theorem addAllowance_eq {G g : Nat} (h : G + g ≤ maxWh) : addAllowance G g = G + g := if_pos h

/-- The sequence below a number is another. -/
theorem seqPred_ne (q : Nat) : seqPred q ≠ q := by
  unfold seqPred
  omega

theorem stage1_pending_applied {g : PendingGrant} {applied : Nat} (hg : r.acct.pendingGrant = some g) (h : applied = r.acct.q) :
    r.stage1 applied =
      { r with acct := { r.acct with allowance := addAllowance r.acct.allowance g.amount, pendingGrant := none } } := by
  simp only [Recon.stage1, hg, if_pos h]

theorem stage1_pending_before {g : PendingGrant} {applied : Nat} (hg : r.acct.pendingGrant = some g) (h : applied = seqPred r.acct.q) :
    r.stage1 applied = r := by
  have hne : ¬ applied = r.acct.q := fun hq => seqPred_ne _ (h.symm.trans hq)
  simp only [Recon.stage1, hg, if_neg hne, if_pos h]

theorem stage1_withdrawn_applied {w : Grant} {applied : Nat} (hg : r.acct.pendingGrant = none) (hw : r.acct.withdrawn = some w)
    (h : applied = r.acct.q) : r.stage1 applied =
      { r with
        acct := { r.acct with
          allowance := addAllowance r.acct.allowance w.amount
          balance := r.acct.balance - min w.amount r.acct.balance
          arrears := min (r.acct.arrears + (w.amount - min w.amount r.acct.balance)) maxArrears
          withdrawn := none }
        notices := r.notices ++ unbookedNotices (r.acct.arrears + (w.amount - min w.amount r.acct.balance)) } := by
  simp only [Recon.stage1, hg, hw, if_pos h, Account.drawBalance_eq]

theorem stage1_withdrawn_before {w : Grant} {applied : Nat} (hg : r.acct.pendingGrant = none) (hw : r.acct.withdrawn = some w)
    (h : applied = seqPred r.acct.q) : r.stage1 applied = { r with acct := { r.acct with withdrawn := none, q := applied } } := by
  have hne : ¬ applied = r.acct.q := fun hq => seqPred_ne _ (h.symm.trans hq)
  simp only [Recon.stage1, hg, hw, if_neg hne, if_pos h]

theorem stage1_no_grant {applied : Nat} (hg : r.acct.pendingGrant = none) (hw : r.acct.withdrawn = none) (h : applied = r.acct.q) :
    r.stage1 applied = r := by
  simp only [Recon.stage1, hg, hw, if_pos h]

theorem stage1_fault {applied : Nat} (hq : applied ≠ r.acct.q)
    (h : applied ≠ seqPred r.acct.q ∨ r.acct.pendingGrant = none ∧ r.acct.withdrawn = none) :
    r.stage1 applied = { r with faults := r.faults ++ [.grantSeq] } := by
  cases hg : r.acct.pendingGrant with
  | some g =>
    have hpred : applied ≠ seqPred r.acct.q := h.elim id fun hn => absurd hn.1 (by rw [hg]; exact Option.some_ne_none g)
    simp only [Recon.stage1, hg, if_neg hq, if_neg hpred]
  | none =>
    cases hw : r.acct.withdrawn with
    | some w =>
      have hpred : applied ≠ seqPred r.acct.q := h.elim id fun hn => absurd hn.2 (by rw [hw]; exact Option.some_ne_none w)
      simp only [Recon.stage1, hg, hw, if_neg hq, if_neg hpred]
    | none => simp only [Recon.stage1, hg, hw, if_neg hq]

/-! ### Stage 2 (R56 to R58) -/

/-- The faults of the test against the arrears limit (R58). -/
def limitFaults (limit arrears : Nat) : List Cause := if limit < arrears then [.arrearsLimit] else []

theorem limitTest_eq (r : Recon) (limit : Nat) : r.limitTest limit = { r with faults := r.faults ++ limitFaults limit r.acct.arrears } := by
  unfold Recon.limitTest limitFaults
  split
  · rfl
  · rw [List.append_nil]

theorem charge_eq (r : Recon) (d meter step : Nat) : r.charge d meter step =
    let used := min d r.acct.allowance
    let taken := min (d - used) r.acct.balance
    { r with
      acct := { r.acct with
        allowance := r.acct.allowance - used, balance := r.acct.balance - taken
        arrears := min (r.acct.arrears + (d - used - taken)) maxArrears, baseline := some meter }
      notices := r.notices ++ (if step < d then [.usageJump d step] else []) ++ unbookedNotices (r.acct.arrears + (d - used - taken)) } := by
  simp only [Recon.charge, Account.drawBalance_eq]

theorem stage2_adopt {p : Plan} {meter : Nat} (h : r.acct.baseline = none ∨ r.acct.rebaseDue = true) : r.stage2 p meter =
    (({ r with acct := { r.acct with baseline := some meter, rebaseDue := false } } : Recon).limitTest p.arrearsLimit, false) := by
  cases hb : r.acct.baseline with
  | none => simp only [Recon.stage2, hb]
  | some u =>
    have hr : r.acct.rebaseDue = true := h.elim (fun hn => absurd hn (by rw [hb]; exact Option.some_ne_none u)) id
    simp only [Recon.stage2, hb, hr, if_true]

theorem stage2_regress {p : Plan} {meter u : Nat} (hu : r.acct.baseline = some u) (hr : r.acct.rebaseDue = false)
    (hd : 8388608 < meterDistance meter u) : r.stage2 p meter = ({ r with faults := r.faults ++ [.regress] }, true) := by
  simp [Recon.stage2, hu, hr, regressed, hd]

theorem stage2_charge {p : Plan} {meter u : Nat} (hu : r.acct.baseline = some u) (hr : r.acct.rebaseDue = false)
    (hd : meterDistance meter u ≤ 8388608) :
    r.stage2 p meter = ((r.charge (meterDistance meter u) meter p.usageStep).limitTest p.arrearsLimit, false) := by
  simp [Recon.stage2, hu, hr, regressed, Nat.not_lt.2 hd]

/-- The three ways of stage 2. -/
theorem stage2_cases (r : Recon) (meter : Nat) :
    (r.acct.baseline = none ∨ r.acct.rebaseDue = true) ∨
      ∃ u, r.acct.baseline = some u ∧ r.acct.rebaseDue = false ∧ (8388608 < meterDistance meter u ∨ meterDistance meter u ≤ 8388608) := by
  cases hb : r.acct.baseline with
  | none => exact .inl (.inl rfl)
  | some u =>
    cases hr : r.acct.rebaseDue with
    | true => exact .inl (.inr rfl)
    | false => exact .inr ⟨u, rfl, rfl, Nat.lt_or_ge _ _⟩

/-! ### Stages 3 and 4 (R59, R60) -/

theorem stage3_skipped {carried : InstructionSet} {rep : KitReport} (h : ¬ (carried.revoke && rep.revokeDone) = true) :
    r.stage3 carried rep = (r, false) := if_neg h

theorem stage3_returned {carried : InstructionSet} {rep : KitReport} (h : (carried.revoke && rep.revokeDone) = true)
    (hd : rep.discarded ≤ r.acct.allowance) : r.stage3 carried rep =
      let pay := min rep.discarded r.acct.arrears
      let sum := r.acct.balance + (rep.discarded - pay)
      ({ r with
          acct := { r.acct with
            allowance := r.acct.allowance - rep.discarded, arrears := r.acct.arrears - pay, balance := min sum maxWh
            revokeDue := false }
          notices := r.notices ++ clampNotices sum }, false) := by
  simp only [Recon.stage3, h, if_true, if_pos hd, Account.returnToBalance_eq]

theorem stage3_overclaim {carried : InstructionSet} {rep : KitReport} (h : (carried.revoke && rep.revokeDone) = true)
    (hd : r.acct.allowance < rep.discarded) : r.stage3 carried rep = ({ r with faults := r.faults ++ [.overclaim] }, true) := by
  simp only [Recon.stage3, h, if_true, if_neg (Nat.not_le.2 hd)]

theorem stage4_equal {k : Nat} (h : k = r.acct.allowance) : r.stage4 k = r := if_pos h

theorem stage4_below {k : Nat} (h : k < r.acct.allowance) : r.stage4 k =
    { r with
      acct := { r.acct with allowance := k }
      notices := r.notices ++ [.allowanceDrift (r.acct.allowance - k)] } := by
  simp only [Recon.stage4, if_neg (Nat.ne_of_lt h), if_pos h]

theorem stage4_above {k : Nat} (h : r.acct.allowance < k) : r.stage4 k = { r with faults := r.faults ++ [.overclaim] } := by
  simp only [Recon.stage4, if_neg (Nat.ne_of_gt h), if_neg (Nat.not_lt.2 h.le)]

/-! ### The skips (R54) -/

theorem figures_grantSeq {p : Plan} {rep : KitReport} {carried : InstructionSet} (h : (r.stage1 rep.applied).faults ≠ r.faults) :
    r.figures p rep carried = r.stage1 rep.applied := if_pos h

theorem figures_regress {p : Plan} {rep : KitReport} {carried : InstructionSet} (h : (r.stage1 rep.applied).faults = r.faults)
    (h2 : ((r.stage1 rep.applied).stage2 p rep.meter).2 = true) :
    r.figures p rep carried = ((r.stage1 rep.applied).stage2 p rep.meter).1 := by
  simp only [Recon.figures, h, ne_eq, not_true_eq_false, if_false, h2, if_true]

theorem figures_revoke {p : Plan} {rep : KitReport} {carried : InstructionSet} (h : (r.stage1 rep.applied).faults = r.faults)
    (h2 : ((r.stage1 rep.applied).stage2 p rep.meter).2 = false)
    (h3 : (((r.stage1 rep.applied).stage2 p rep.meter).1.stage3 carried rep).2 = true) :
    r.figures p rep carried = (((r.stage1 rep.applied).stage2 p rep.meter).1.stage3 carried rep).1 := by
  simp only [Recon.figures, h, ne_eq, not_true_eq_false, if_false, h2, Bool.false_eq_true, h3, if_true]

theorem figures_whole {p : Plan} {rep : KitReport} {carried : InstructionSet} (h : (r.stage1 rep.applied).faults = r.faults)
    (h2 : ((r.stage1 rep.applied).stage2 p rep.meter).2 = false)
    (h3 : (((r.stage1 rep.applied).stage2 p rep.meter).1.stage3 carried rep).2 = false) :
    r.figures p rep carried = (((r.stage1 rep.applied).stage2 p rep.meter).1.stage3 carried rep).1.stage4 rep.remaining := by
  simp only [Recon.figures, h, ne_eq, not_true_eq_false, if_false, h2, Bool.false_eq_true, h3]

/-- Stage 2 without REGRESS goes on to stage 3. -/
theorem stage2_flag {p : Plan} {meter : Nat} (h : Cause.regress ∉ (r.stage2 p meter).1.faults) : (r.stage2 p meter).2 = false := by
  rcases stage2_cases r meter with hadopt | ⟨u, hu, hr, hd | hd⟩
  · rw [stage2_adopt hadopt]
  · rw [stage2_regress hu hr hd] at h
    simp at h
  · rw [stage2_charge hu hr hd]

/-- Stage 3 without OVERCLAIM goes on to stage 4. -/
theorem stage3_flag {carried : InstructionSet} {rep : KitReport} (h : Cause.overclaim ∉ (r.stage3 carried rep).1.faults) :
    (r.stage3 carried rep).2 = false := by
  by_cases hrevoke : (carried.revoke && rep.revokeDone) = true
  · rcases Nat.lt_or_ge r.acct.allowance rep.discarded with hd | hd
    · rw [stage3_overclaim hrevoke hd] at h
      simp at h
    · rw [stage3_returned hrevoke hd]
  · rw [stage3_skipped hrevoke]

/-! ### Stages 5 and 6 (R61, R62) -/

/-- The tag of the carried relay payload that a report ends (R61). -/
def doneTag (carried held : Option Relay) : Option Nat :=
  match carried, held with
  | some c, some h => if c.tag = h.tag then some h.tag else none
  | _, _ => none

theorem takeCarried_eq (a : Account) (slot : Nat) (carried : InstructionSet) : a.takeCarried slot carried =
    ({ a with
        lockNoticeDue := a.lockNoticeDue && !carried.lockNotice
        relay := if (doneTag carried.relay a.relay).isSome then none else a.relay },
      match doneTag carried.relay a.relay with
      | some tag => [⟨tag, slot, .relayDone⟩]
      | none => []) := by
  have hlock : (if carried.lockNotice then { a with lockNoticeDue := false } else a) =
      { a with lockNoticeDue := a.lockNoticeDue && !carried.lockNotice } := by
    cases carried.lockNotice
    · simp
    · simp
  unfold Account.takeCarried
  rw [hlock]
  cases hc : carried.relay with
  | none => simp only [doneTag]; rfl
  | some c =>
    cases hr : a.relay with
    | none =>
      simp only [doneTag, ← hr]
      rfl
    | some h =>
      by_cases htag : c.tag = h.tag
      · simp only [doneTag, htag, if_true]
        rfl
      · simp only [doneTag, if_neg htag, ← hr]
        rfl

theorem eventRecords_newEvents (slot kitId : Nat) (old e : KitEvents) : eventRecords slot kitId (newEvents old e) =
    ([(.tamper, e.tamper && !old.tamper), (.panelFault, e.panelFault && !old.panelFault),
      (.batteryLow, e.batteryLow && !old.batteryLow), (.overload, e.overload && !old.overload)] :
      List (KitEvent × Bool)).filterMap fun k => if k.2 then some ⟨0, slot, .kitEvent kitId k.1⟩ else none := by
  simp only [newEvents]
  generalize (e.tamper && !old.tamper) = tamper
  generalize (e.panelFault && !old.panelFault) = panel
  generalize (e.batteryLow && !old.batteryLow) = battery
  generalize (e.overload && !old.overload) = overload
  cases tamper <;> cases panel <;> cases battery <;> cases overload <;> rfl

/-- The account after stage 5 (R61). -/
def Account.reported (a : Account) (rep : KitReport) (carried : InstructionSet) : Account :=
  { a with
    latch := a.latch.add rep.events
    lockNoticeDue := a.lockNoticeDue && !carried.lockNotice
    relay := if (doneTag carried.relay a.relay).isSome then none else a.relay }

/-- The records of stage 5 (R61). -/
def Account.reportedRecords (a : Account) (slot : Nat) (rep : KitReport) (carried : InstructionSet) : List Report :=
  eventRecords slot a.kitId (newEvents a.latch rep.events) ++
    match doneTag carried.relay a.relay with
    | some tag => [⟨tag, slot, .relayDone⟩]
    | none => []

theorem reconcile_faultless {p : Plan} {slot : Nat} {rep : KitReport} {carried : InstructionSet}
    (h : (({ acct := a } : Recon).figures p rep carried).faults = []) : a.reconcile p slot rep carried =
      let r := ({ acct := a } : Recon).figures p rep carried
      ((r.acct.reported rep carried).creditTest, noticeRecords 0 slot r.notices ++ r.acct.reportedRecords slot rep carried) := by
  simp only [Account.reconcile, takeCarried_eq, Account.latchEvents, h]
  rw [List.append_assoc]
  rfl

theorem reconcile_faulty {p : Plan} {slot : Nat} {rep : KitReport} {carried : InstructionSet} {c : Cause} {cs : List Cause}
    (h : (({ acct := a } : Recon).figures p rep carried).faults = c :: cs) : a.reconcile p slot rep carried =
      let r := ({ acct := a } : Recon).figures p rep carried
      let (b, qs, ns, causes) := (r.acct.reported rep carried).quarantine slot c cs
      (b, qs ++ noticeRecords 0 slot (r.notices ++ ns ++ causes.map .cause) ++ r.acct.reportedRecords slot rep carried) := by
  simp only [Account.reconcile, takeCarried_eq, Account.latchEvents, h]
  rw [List.append_assoc]
  rfl

theorem quarantine_again {slot : Nat} {c : Cause} {cs : List Cause} (h : a.state = .quarantined) :
    a.quarantine slot c cs = (a, [], [], c :: cs) := if_pos h

theorem quarantine_first {slot : Nat} {c : Cause} {cs : List Cause} (h : a.state ≠ .quarantined) : a.quarantine slot c cs =
    let (b, ns) := ({ a with cause := some c } : Account).enterHold .quarantined
    (b, [quarantineRecord slot c a.state b], ns, cs) := if_neg h

/-! ### The outcome of a reconciliation (R63) -/

/-- The records of a reconciliation (R63): the QUARANTINE, the notices, the events and the relay's end. -/
def outcomeRecords (slot : Nat) (first : List Report) (notices : List NoticeBody) (r : Recon) (rep : KitReport)
    (carried : InstructionSet) : List Report :=
  first ++ notices.map (fun n => ⟨0, slot, .notice n⟩) ++ r.acct.reportedRecords slot rep carried

/-! ### A withdrawn grant reported applied (R60) -/

/-- The usage a report claims against an account (R56). -/
def Account.usage (a : Account) (meter : Nat) : Nat :=
  match a.baseline with
  | some u => if a.rebaseDue then 0 else meterDistance meter u
  | none => 0

theorem usage_adopt {meter : Nat} (h : a.baseline = none ∨ a.rebaseDue = true) : a.usage meter = 0 := by
  unfold Account.usage
  cases hb : a.baseline with
  | none => rfl
  | some u => exact if_pos (h.elim (fun hn => absurd hn (by rw [hb]; exact Option.some_ne_none u)) id)

theorem usage_charge {meter u : Nat} (hu : a.baseline = some u) (hr : a.rebaseDue = false) : a.usage meter = meterDistance meter u := by
  simp [Account.usage, hu, hr]

theorem limitFaults_mem {limit arrears : Nat} {c : Cause} (h : c ∈ limitFaults limit arrears) : c = .arrearsLimit := by
  unfold limitFaults at h
  split at h
  · exact List.mem_singleton.1 h
  · cases h

/-- Stage 2 finds no claim too large, and takes the usage from the allowance (R57). -/
theorem stage2_allowance (r : Recon) (p : Plan) (meter : Nat) (hover : Cause.overclaim ∉ r.faults) :
    Cause.overclaim ∉ (r.stage2 p meter).1.faults ∧
      ((r.stage2 p meter).2 = false → (r.stage2 p meter).1.acct.allowance = r.acct.allowance - r.acct.usage meter) := by
  have hlimit {limit arrears : Nat} : Cause.overclaim ∉ r.faults ++ limitFaults limit arrears := by
    rw [List.mem_append]
    rintro (h | h)
    · exact hover h
    · cases limitFaults_mem h
  rcases stage2_cases r meter with hadopt | ⟨u, hu, hr, hd | hd⟩
  · rw [stage2_adopt hadopt, limitTest_eq, usage_adopt hadopt]
    exact ⟨hlimit, fun _ => rfl⟩
  · rw [stage2_regress hu hr hd]
    exact ⟨by simpa using hover, fun h => by cases h⟩
  · rw [stage2_charge hu hr hd, limitTest_eq, charge_eq, usage_charge hu hr]
    exact ⟨hlimit, fun _ => by dsimp only; omega⟩

/-- A claim within the allowance is not found too large in the stages 2 to 4. -/
theorem overclaim_not_mem {p : Plan} {rep : KitReport} {carried : InstructionSet}
    (hsame : (r.stage1 rep.applied).faults = r.faults) (hover : Cause.overclaim ∉ r.faults) {left : Nat}
    (hleft : (r.stage1 rep.applied).acct.allowance - (r.stage1 rep.applied).acct.usage rep.meter = left)
    (hdiscarded : (if carried.revoke && rep.revokeDone then rep.discarded else 0) ≤ left)
    (hremaining : rep.remaining ≤ left - if carried.revoke && rep.revokeDone then rep.discarded else 0) :
    Cause.overclaim ∉ (r.figures p rep carried).faults := by
  obtain ⟨hover2, hallowance⟩ := stage2_allowance (r.stage1 rep.applied) p rep.meter (by rw [hsame]; exact hover)
  have hlast {t : Recon} (ht : Cause.overclaim ∉ t.faults) (hk : rep.remaining ≤ t.acct.allowance) :
      Cause.overclaim ∉ (t.stage4 rep.remaining).faults := by
    rcases Nat.lt_or_eq_of_le hk with hlt | heq
    · rwa [stage4_below hlt]
    · rwa [stage4_equal heq]
  cases hflag : ((r.stage1 rep.applied).stage2 p rep.meter).2 with
  | true => rwa [figures_regress hsame hflag]
  | false =>
    have hG := (hallowance hflag).trans hleft
    by_cases hrevoke : (carried.revoke && rep.revokeDone) = true
    · simp only [hrevoke, if_true] at hdiscarded hremaining
      have hstage := stage3_returned (r := ((r.stage1 rep.applied).stage2 p rep.meter).1) hrevoke (hdiscarded.trans hG.ge)
      rw [figures_whole hsame hflag (by rw [hstage]), hstage]
      exact hlast hover2 (hremaining.trans (Nat.sub_le_sub_right hG.ge _))
    · simp only [hrevoke] at hremaining
      have hstage := stage3_skipped (r := ((r.stage1 rep.applied).stage2 p rep.meter).1) hrevoke
      rw [figures_whole hsame hflag (by rw [hstage]), hstage]
      exact hlast hover2 (hremaining.trans hG.ge)

/-! ### The stages in order -/

/-- Settles O45: the stages one by one, with the skips between them, and the records they leave. -/
theorem reconciliationRunsItsStages : Obligations.ReconciliationRunsItsStages := by
  refine ⟨fun a p slot rep carried => ?_, fun r k slot => ⟨stage4_equal, fun hk => ?_, stage4_above, ?_⟩⟩
  · intro before isSum unbooked clamped
    generalize h1 : ({ acct := a } : Recon).stage1 rep.applied = r1
    generalize h2 : r1.stage2 p rep.meter = r2
    generalize h3 : r2.1.stage3 carried rep = r3
    generalize h4 : ({ acct := a } : Recon).figures p rep carried = r4
    refine ⟨r1, r2.1, r3.1, r4, ?_, ?_, ?_, ?_, ?_, ?_, ?_⟩
    · exact fun g hg => ⟨fun hq => ⟨_, ⟨addAllowance_le _ _, addAllowance_eq⟩, h1.symm.trans (stage1_pending_applied hg hq)⟩,
        fun hq => h1.symm.trans (stage1_pending_before hg hq)⟩
    · exact fun w hg hw => ⟨fun hq => ⟨_, ⟨addAllowance_le _ _, addAllowance_eq⟩, h1.symm.trans (stage1_withdrawn_applied hg hw hq)⟩,
        fun hq => h1.symm.trans (stage1_withdrawn_before hg hw hq)⟩
    · exact fun hg hw hq => h1.symm.trans (stage1_no_grant hg hw hq)
    · exact fun hq hother => h1.symm.trans (stage1_fault hq hother)
    · intro hfaults
      subst h1
      exact h4.symm.trans (figures_grantSeq hfaults)
    · intro hfaults x booked
      have hsame : (({ acct := a } : Recon).stage1 rep.applied).faults = ({ acct := a } : Recon).faults := by rw [h1, hfaults]
      have hbooked (y : Account) (notices : List NoticeBody) :
          ({ r1 with acct := y, notices := r1.notices ++ notices } : Recon).limitTest p.arrearsLimit = booked y notices := by
        rw [limitTest_eq]
        simp only [hfaults, List.nil_append]
        rfl
      subst h4
      subst h3
      subst h2
      subst h1
      refine ⟨fun hadopt => ?_, fun u hu hrebase => ?_, fun hregress => ?_⟩
      · rw [stage2_adopt hadopt, ← hbooked, List.append_nil]
      · intro d
        refine ⟨fun hd => ?_, fun hd => ?_⟩
        · have hstage := stage2_regress (p := p) hu hrebase hd
          refine ⟨by rw [hstage, hfaults]; rfl, figures_regress hsame (by rw [hstage])⟩
        · intro used taken
          refine Eq.trans ?_ (hbooked _ _)
          rw [stage2_charge hu hrebase hd, charge_eq, ← List.append_assoc]
          rfl
      · have hflag := stage2_flag hregress
        refine ⟨fun hskip => ?_, fun hrevoke hdone => ⟨fun hd => ?_, fun hd => ?_⟩, fun hover => ?_⟩
        · rw [stage3_skipped]
          rcases hskip with h | h <;> simp [h]
        · rw [stage3_returned (by simp [hrevoke, hdone]) hd]
          rfl
        · have hstage := stage3_overclaim (r := ((({ acct := a } : Recon).stage1 rep.applied).stage2 p rep.meter).1) (rep := rep) (carried := carried) (by simp [hrevoke, hdone]) hd
          exact ⟨by rw [hstage], figures_revoke hsame hflag (by rw [hstage])⟩
        · rw [figures_whole hsame hflag (stage3_flag hover)]
          exact ⟨stage4_equal, stage4_below, stage4_above⟩
    · intro e old done b events outcome credit
      have hevents : eventRecords slot r4.acct.kitId (newEvents r4.acct.latch rep.events) = events := eventRecords_newEvents ..
      have hb : r4.acct.reported rep carried = b := rfl
      have hrecords : r4.acct.reportedRecords slot rep carried = events ++
          (match done with
           | some tag => [⟨tag, slot, .relayDone⟩]
           | none => []) := by rw [← hevents]; rfl
      have houtcome {c : Account} {first : List Report} {notices : List NoticeBody}
          (h : a.reconcile p slot rep carried = (c, first ++ noticeRecords 0 slot notices ++ r4.acct.reportedRecords slot rep carried)) :
          outcome c first notices := by
        rw [hrecords, ← List.append_assoc] at h
        exact h
      have hcredit : ¬ credit ↔ b.balance = 0 ∧ b.allowance = 0 ∧ b.pendingGrant = none ∧ b.withdrawn = none := by
        simp [credit]
      refine ⟨fun hnone => ?_, fun c further hfaults => ⟨fun hstate => ?_, fun hstate => ?_⟩⟩
      · have hrun := reconcile_faultless (slot := slot) (by rw [h4]; exact hnone)
        rw [h4] at hrun
        dsimp only at hrun
        rw [hb, creditTest_eq] at hrun
        refine ⟨fun hactive hno => houtcome ?_, fun hlocked hbalance => houtcome ?_, fun hno hnl => houtcome ?_⟩
        · rw [hrun, if_neg (fun h => absurd (h.1.symm.trans hactive) (by decide)), if_pos ⟨hactive, hcredit.1 hno⟩]
          rfl
        · rw [hrun, if_pos ⟨hlocked, hbalance⟩]
          rfl
        · rw [hrun, if_neg hnl, if_neg fun h => hno ⟨h.1, hcredit.2 h.2⟩]
          rfl
      · have hrun := reconcile_faulty (slot := slot) (by rw [h4]; exact hfaults)
        rw [h4] at hrun
        dsimp only at hrun
        rw [hb, quarantine_again hstate] at hrun
        refine houtcome (hrun.trans ?_)
        rw [List.append_nil]
      · intro held entered
        have hrun := reconcile_faulty (slot := slot) (by rw [h4]; exact hfaults)
        rw [h4] at hrun
        dsimp only at hrun
        rw [hb, quarantine_first hstate] at hrun
        refine ⟨fun hnone => houtcome ?_, fun g hg => houtcome ?_⟩
        · rw [enterHold_none (a := { b with cause := some c }) hnone] at hrun
          exact hrun
        · rw [enterHold_some (a := { b with cause := some c }) hg] at hrun
          exact hrun
  · exact ⟨_, stage4_below hk, rfl, rfl, by simp [noticeRecords]⟩
  · intro a w p rep carried hg hw hq hsum usage discarded hdiscarded hremaining
    have hstage := stage1_withdrawn_applied (r := { acct := a }) hg hw hq
    rw [addAllowance_eq (by exact hsum)] at hstage
    exact overclaim_not_mem (by rw [hstage]) List.not_mem_nil (by rw [hstage]; rfl) hdiscarded hremaining

end Sys2Proof.Machine
end

section
/-!
The energy balance of a reconciliation (R54 to R62): what each stage makes of balance, allowance, pending grant and arrears together.
-/

namespace Sys2Proof.Machine

variable {r : Recon} {a : Account}

/-- The energy an account stands for: balance, allowance and pending grant, less the arrears. -/
def Account.energy (x : Account) : Int :=
  (x.balance : Int) + x.allowance + (x.pendingGrant.map PendingGrant.amount).getD 0 - x.arrears

/-- Notices without a clamp of balance or arrears. -/
def Unclamped (ns : List NoticeBody) : Prop := ∀ x, .balanceClamped x ∉ ns ∧ .arrearsClamped x ∉ ns

theorem unclamped_append {ns ms : List NoticeBody} : Unclamped (ns ++ ms) ↔ Unclamped ns ∧ Unclamped ms := by
  simp only [Unclamped, List.mem_append, not_or]
  constructor
  · exact fun h => ⟨fun x => ⟨(h x).1.1, (h x).2.1⟩, fun x => ⟨(h x).1.2, (h x).2.2⟩⟩
  · exact fun h x => ⟨⟨(h.1 x).1, (h.2 x).1⟩, (h.1 x).2, (h.2 x).2⟩

theorem le_of_unclamped_clampNotices {sum : Nat} (h : Unclamped (clampNotices sum)) : sum ≤ maxWh := by
  by_contra hlt
  exact (h (sum - maxWh)).1 (by simp [clampNotices, Nat.not_le.1 hlt])

theorem le_of_unclamped_unbookedNotices {sum : Nat} (h : Unclamped (unbookedNotices sum)) : sum ≤ maxArrears := by
  by_contra hlt
  exact (h (sum - maxArrears)).2 (by simp [unbookedNotices, Nat.not_le.1 hlt])

/-! ### The stages -/

/-- Stage 1 without a fault only moves energy (R55). -/
theorem stage1_energy {applied : Nat} (hg : ∀ g, r.acct.pendingGrant = some g → r.acct.allowance + g.amount ≤ maxWh)
    (hw : ∀ w, r.acct.withdrawn = some w → r.acct.allowance + w.amount ≤ maxWh) (hfaults : (r.stage1 applied).faults = r.faults)
    (hclamp : Unclamped (r.stage1 applied).notices) :
    (r.stage1 applied).acct.energy = r.acct.energy ∧ (r.stage1 applied).acct.usage = r.acct.usage := by
  have hfault (h : r.stage1 applied = { r with faults := r.faults ++ [.grantSeq] }) : False := by
    rw [h] at hfaults
    simp at hfaults
  by_cases hq : applied = r.acct.q
  · cases hpending : r.acct.pendingGrant with
    | some g =>
      rw [stage1_pending_applied hpending hq, addAllowance_eq (hg g hpending)]
      refine ⟨?_, rfl⟩
      simp only [Account.energy, hpending, Option.map_some, Option.map_none, Option.getD_some, Option.getD_none]
      omega
    | none =>
      cases hwithdrawn : r.acct.withdrawn with
      | none => rw [stage1_no_grant hpending hwithdrawn hq]; exact ⟨rfl, rfl⟩
      | some w =>
        have hstage := stage1_withdrawn_applied hpending hwithdrawn hq
        rw [hstage] at hclamp
        have hsum := le_of_unclamped_unbookedNotices (unclamped_append.1 hclamp).2
        rw [hstage, addAllowance_eq (hw w hwithdrawn)]
        refine ⟨?_, rfl⟩
        simp only [Account.energy, hpending, Option.map_none, Option.getD_none]
        omega
  · by_cases hpred : applied = seqPred r.acct.q
    · cases hpending : r.acct.pendingGrant with
      | some g => rw [stage1_pending_before hpending hpred]; exact ⟨rfl, rfl⟩
      | none =>
        cases hwithdrawn : r.acct.withdrawn with
        | none => exact (hfault (stage1_fault hq (.inr ⟨hpending, hwithdrawn⟩))).elim
        | some w => rw [stage1_withdrawn_before hpending hwithdrawn hpred]; exact ⟨rfl, rfl⟩
    · exact (hfault (stage1_fault hq (.inl hpred))).elim

theorem charge_balance {balance allowance arrears d top : Nat} (pending : Int)
    (h : arrears + (d - min d allowance - min (d - min d allowance) balance) ≤ top) :
    (balance : Int) + allowance + pending - arrears =
      ((balance - min (d - min d allowance) balance : Nat) : Int) + (allowance - min d allowance : Nat) + pending -
        (min (arrears + (d - min d allowance - min (d - min d allowance) balance)) top : Nat) + d := by omega

/-- A charge takes its usage from allowance, balance and arrears together (R57). -/
theorem charge_energy {d meter step : Nat}
    (h : r.acct.arrears + (d - min d r.acct.allowance - min (d - min d r.acct.allowance) r.acct.balance) ≤ maxArrears) :
    r.acct.energy = (r.charge d meter step).acct.energy + d := by
  rw [charge_eq]
  exact charge_balance _ h

theorem limitTest_energy (r : Recon) (limit : Nat) : (r.limitTest limit).acct.energy = r.acct.energy := by rw [limitTest_eq]

theorem limitTest_notices (r : Recon) (limit : Nat) : (r.limitTest limit).notices = r.notices := by rw [limitTest_eq]

theorem charge_unclamped {d meter step : Nat} (h : Unclamped (r.charge d meter step).notices) : Unclamped r.notices ∧
    r.acct.arrears + (d - min d r.acct.allowance - min (d - min d r.acct.allowance) r.acct.balance) ≤ maxArrears := by
  rw [charge_eq] at h
  obtain ⟨hbefore, hbooked⟩ := unclamped_append.1 h
  exact ⟨(unclamped_append.1 hbefore).1, le_of_unclamped_unbookedNotices hbooked⟩

/-- Stage 2 takes the usage and nothing else (R57). -/
theorem stage2_energy {p : Plan} {meter : Nat} (hflag : (r.stage2 p meter).2 = false) (hclamp : Unclamped (r.stage2 p meter).1.notices) :
    r.acct.energy = (r.stage2 p meter).1.acct.energy + r.acct.usage meter ∧ (r.stage2 p meter).1.acct.baseline = some meter ∧
      Unclamped r.notices := by
  rcases stage2_cases r meter with hadopt | ⟨u, hu, hr, hd | hd⟩
  · rw [stage2_adopt hadopt, limitTest_eq] at hclamp ⊢
    rw [usage_adopt hadopt]
    exact ⟨by simp [Account.energy], rfl, hclamp⟩
  · rw [stage2_regress hu hr hd] at hflag
    cases hflag
  · rw [usage_charge hu hr]
    rw [stage2_charge hu hr hd] at hclamp ⊢
    generalize meterDistance meter u = d at *
    rw [limitTest_notices] at hclamp
    obtain ⟨hbefore, hsum⟩ := charge_unclamped hclamp
    refine ⟨?_, ?_, hbefore⟩
    · rw [limitTest_energy]
      exact charge_energy hsum
    · rw [limitTest_eq, charge_eq]

/-- Stage 3 only moves energy (R59). -/
theorem stage3_energy {carried : InstructionSet} {rep : KitReport} (hflag : (r.stage3 carried rep).2 = false)
    (hclamp : Unclamped (r.stage3 carried rep).1.notices) :
    (r.stage3 carried rep).1.acct.energy = r.acct.energy ∧ (r.stage3 carried rep).1.acct.baseline = r.acct.baseline ∧
      Unclamped r.notices := by
  by_cases hrevoke : (carried.revoke && rep.revokeDone) = true
  · rcases Nat.lt_or_ge r.acct.allowance rep.discarded with hd | hd
    · rw [stage3_overclaim hrevoke hd] at hflag
      cases hflag
    · rw [stage3_returned hrevoke hd] at hclamp ⊢
      obtain ⟨hbefore, hclamped⟩ := unclamped_append.1 hclamp
      have hsum := le_of_unclamped_clampNotices hclamped
      refine ⟨?_, rfl, hbefore⟩
      simp only [Account.energy]
      omega
  · rw [stage3_skipped hrevoke] at hclamp ⊢
    exact ⟨rfl, rfl, hclamp⟩

/-- Stage 4 without a fault loses the drift it reports (R60). -/
theorem stage4_energy {k : Nat} (hfaults : (r.stage4 k).faults = r.faults) (hclamp : Unclamped (r.stage4 k).notices) :
    ∃ drift : Nat, r.acct.energy = (r.stage4 k).acct.energy + drift ∧ (r.stage4 k).acct.allowance = k ∧
      (r.stage4 k).acct.baseline = r.acct.baseline ∧ (0 < drift → .allowanceDrift drift ∈ (r.stage4 k).notices) ∧ Unclamped r.notices := by
  rcases Nat.lt_trichotomy k r.acct.allowance with hlt | heq | hgt
  · rw [stage4_below hlt] at hclamp ⊢
    refine ⟨r.acct.allowance - k, ?_, rfl, rfl, fun _ => by simp, (unclamped_append.1 hclamp).1⟩
    simp only [Account.energy]
    omega
  · rw [stage4_equal heq] at hclamp ⊢
    exact ⟨0, by simp, heq.symm, rfl, fun h => absurd h (Nat.lt_irrefl 0), hclamp⟩
  · rw [stage4_above hgt] at hfaults
    simp at hfaults

theorem stage4_faultless {k : Nat} (h : (r.stage4 k).faults = []) : r.faults = [] := by
  rcases Nat.lt_trichotomy k r.acct.allowance with hlt | heq | hgt
  · rwa [stage4_below hlt] at h
  · rwa [stage4_equal heq] at h
  · rw [stage4_above hgt] at h
    simp at h

/-- Figures without a fault ran all four stages (R54). -/
theorem figures_faultless {p : Plan} {rep : KitReport} {carried : InstructionSet}
    (h : (({ acct := a } : Recon).figures p rep carried).faults = []) :
    let r1 := ({ acct := a } : Recon).stage1 rep.applied
    let r2 := r1.stage2 p rep.meter
    let r3 := r2.1.stage3 carried rep
    r1.faults = [] ∧ r2.2 = false ∧ r3.2 = false ∧ r3.1.faults = [] ∧
      ({ acct := a } : Recon).figures p rep carried = r3.1.stage4 rep.remaining := by
  intro r1 r2 r3
  have h1 : r1.faults = [] := by
    by_contra hne
    rw [figures_grantSeq (by exact hne)] at h
    exact hne h
  have h2 : r2.2 = false := by
    rw [← Bool.not_eq_true]
    intro htrue
    rw [figures_regress h1 htrue] at h
    exact absurd (stage2_flag (by rw [h]; exact List.not_mem_nil)) (by simp [r2, r1] at htrue; simp [htrue])
  have h3 : r3.2 = false := by
    rw [← Bool.not_eq_true]
    intro htrue
    rw [figures_revoke h1 h2 htrue] at h
    exact absurd (stage3_flag (by rw [h]; exact List.not_mem_nil)) (by simp [r3, r2, r1] at htrue; simp [htrue])
  have hwhole := figures_whole h1 h2 h3
  rw [hwhole] at h
  exact ⟨h1, h2, h3, stage4_faultless h, hwhole⟩

/-! ### The balance -/

/-- What the state test leaves of the figures (R6). -/
theorem creditTest_energy (a : Account) :
    a.creditTest.energy = a.energy ∧ a.creditTest.baseline = a.baseline ∧ a.creditTest.allowance = a.allowance := by
  rw [creditTest_eq]
  split
  · exact ⟨rfl, rfl, rfl⟩
  · split <;> exact ⟨rfl, rfl, rfl⟩

/-- A reconciliation that reports no cause found no fault (R62, R63). -/
theorem faultless_of_records {p : Plan} {slot : Nat} {rep : KitReport} {carried : InstructionSet}
    (hcause : ∀ c, ⟨0, slot, .notice (.cause c)⟩ ∉ (a.reconcile p slot rep carried).2)
    (hquarantine : ∀ k c l B G R q, ⟨0, slot, .quarantine k c l B G R q⟩ ∉ (a.reconcile p slot rep carried).2) :
    (({ acct := a } : Recon).figures p rep carried).faults = [] := by
  cases h : (({ acct := a } : Recon).figures p rep carried).faults with
  | nil => rfl
  | cons c cs =>
    have hrun := reconcile_faulty (slot := slot) h
    dsimp only at hrun
    by_cases hstate : ((({ acct := a } : Recon).figures p rep carried).acct.reported rep carried).state = .quarantined
    · rw [quarantine_again hstate] at hrun
      exact (hcause c (by rw [hrun]; simp [noticeRecords])).elim
    · rw [quarantine_first hstate] at hrun
      exact (hquarantine _ _ _ _ _ _ _ (by rw [hrun]; exact List.mem_cons_self)).elim

/-- A usage is the same read as a natural number and as an integer. -/
theorem usage_cast (baseline : Option Nat) (rebase : Bool) (distance : Nat → Nat) :
    (match baseline with
      | some u => if rebase then (0 : Int) else distance u
      | none => 0) =
    ((match baseline with
      | some u => if rebase then 0 else distance u
      | none => 0 : Nat) : Int) := by
  cases baseline with
  | none => rfl
  | some u => cases rebase <;> rfl

/-- Settles O44: without faults all four stages ran, and each keeps the energy but for usage and drift. -/
theorem reconciliationKeepsEnergy : Obligations.ReconciliationKeepsEnergy := by
  intro a b p slot rep carried rs hrun hg hw hrecords energy usage
  have hrs : rs = (a.reconcile p slot rep carried).2 := by rw [hrun]
  have hnone : (({ acct := a } : Recon).figures p rep carried).faults = [] := by
    refine faultless_of_records (slot := slot) (fun c hc => ?_) fun k c l B G R q hq => ?_
    · exact (hrecords _ (hrs ▸ hc) 0 0 c .loaded 0 0 0 0).2.2.1 rfl
    · exact (hrecords _ (hrs ▸ hq) 0 k c l B G R q).2.2.2 rfl
  have hfinal := reconcile_faultless (slot := slot) hnone
  rw [hrun] at hfinal
  have hb := congrArg Prod.fst hfinal
  have hrs := congrArg Prod.snd hfinal
  dsimp only at hb hrs
  obtain ⟨h1, h2, h3, hfaults3, hfigures⟩ := figures_faultless hnone
  have hnotices {n : NoticeBody} (hn : n ∈ (({ acct := a } : Recon).figures p rep carried).notices) :
      ⟨0, slot, .notice n⟩ ∈ rs := by
    rw [hrs]
    exact List.mem_append_left _ (List.mem_map_of_mem hn)
  have hclamp : Unclamped (({ acct := a } : Recon).figures p rep carried).notices := fun x =>
    ⟨fun hx => (hrecords _ (hnotices hx) x 0 .regress .loaded 0 0 0 0).1 rfl,
      fun hx => (hrecords _ (hnotices hx) x 0 .regress .loaded 0 0 0 0).2.1 rfl⟩
  rw [hfigures] at hclamp hnotices hb hnone
  obtain ⟨drift, he4, hallowance, hbaseline4, hdrift, hclamp3⟩ := stage4_energy (hnone.trans hfaults3.symm) hclamp
  obtain ⟨he3, hbaseline3, hclamp2⟩ := stage3_energy h3 hclamp3
  obtain ⟨he2, hbaseline2, hclamp1⟩ := stage2_energy h2 hclamp2
  obtain ⟨he1, husage⟩ := stage1_energy (r := { acct := a }) hg hw h1 hclamp1
  obtain ⟨hcredit, hbaseline, hallowanceb⟩ := creditTest_energy (((
    (((({ acct := a } : Recon).stage1 rep.applied).stage2 p rep.meter).1.stage3 carried rep).1.stage4 rep.remaining).acct).reported rep carried)
  refine ⟨drift, ?_, ?_, ?_, fun hpos => hnotices (hdrift hpos)⟩
  · have hreported (x : Account) : (x.reported rep carried).energy = x.energy := rfl
    rw [hreported] at hcredit
    rw [husage] at he2
    have husage_eq : usage = a.usage rep.meter := usage_cast a.baseline a.rebaseDue (meterDistance rep.meter)
    rw [husage_eq]
    change a.energy = b.energy + a.usage rep.meter + drift
    change _ = a.energy at he1
    change _ = _ + (a.usage rep.meter : Int) at he2
    rw [hb, hcredit]
    omega
  · rw [hb, hbaseline]
    exact hbaseline4.trans (hbaseline3.trans hbaseline2)
  · rw [hb, hallowanceb]
    exact hallowance

end Sys2Proof.Machine
end

section
/-!
UNLOAD_ACCOUNT (R16, R17): the end of the link, its records, and the closing of the slot.
-/

namespace Sys2Proof.Machine

variable {s t : State} {a : Account} {k : Nat}

/-! ### The end of a link (R17) -/

/-- The bring-up in progress ended (R17): an entry DECLINING has failed before. -/
def State.endBringup (s : State) (k : Nat) : State :=
  match (s.linkVol k).progress with
  | some .declining | none => s
  | some _ => s.failBringup k .accountState

/-- The advisory of the bring-up that an unload ends (R17, R150). -/
def State.endAdvisory (s : State) (k : Nat) : List Report :=
  match (s.linkVol k).progress with
  | some .declining | none => []
  | some p => [⟨0, k, .link ((s.link k).kitId.getD 0) (.bringupFailed .accountState p (s.linkVol k).mismatches)⟩]

theorem endLink_eq (s : State) (k : Nat) : s.endLink k =
    ((((s.endBringup k).release k).dropProbe k).mapLink k fun l => { l with state := .absent, kitId := none }).leaveQueue k := rfl

/-- Whether an unload ends a bring-up in progress. -/
theorem endBringup_cases (s : State) (k : Nat) :
    (s.endBringup k = s ∧ s.endAdvisory k = []) ∨
      (s.endBringup k = s.failBringup k .accountState ∧ s.endAdvisory k = [s.failAdvisory k .accountState]) := by
  unfold State.endBringup State.endAdvisory State.failAdvisory
  cases (s.linkVol k).progress with
  | none => exact .inl ⟨rfl, rfl⟩
  | some p =>
    cases p
    case declining => exact .inl ⟨rfl, rfl⟩
    all_goals exact .inr ⟨rfl, rfl⟩

theorem localTo_endBringup (s : State) (k : Nat) : LocalTo k s (s.endBringup k) := by
  rcases endBringup_cases s k with ⟨h, -⟩ | ⟨h, -⟩
  · rw [h]
    exact .refl k s
  · rw [h]
    exact localTo_failBringup s k _

theorem endBringup_ru (s : State) (k : Nat) : (s.endBringup k).ru = (s.handAll (s.endAdvisory k)).ru := by
  rcases endBringup_cases s k with ⟨h, hrec⟩ | ⟨h, hrec⟩
  · rw [h, hrec]
    rfl
  · rw [h, hrec, failBringup_ru]
    rfl

/-- The Link Controller's state is told by its four registers. -/
theorem linkControl_eq {x y : LinkControl} (hnext : x.nextArrival = y.nextArrival) :
    x = { y with links := x.links, callers := x.callers, exchange := x.exchange } := by
  obtain ⟨_, _, _, _⟩ := x
  cases hnext
  rfl

theorem linkControl_eq_of_exchange {x y : LinkControl} (hnext : x.nextArrival = y.nextArrival) (hexchange : x.exchange = y.exchange) :
    x = { y with links := x.links, callers := x.callers } := by
  obtain ⟨_, _, _, _⟩ := x
  cases hnext
  cases hexchange
  rfl

theorem endBringup_lc (s : State) (k : Nat) : (s.endBringup k).lc =
    { s.lc with links := (s.endBringup k).lc.links, callers := (s.endBringup k).lc.callers } := by
  rcases endBringup_cases s k with ⟨h, -⟩ | ⟨h, -⟩
  · rw [h]
  · have hnext : (s.failedBringup k .accountState).lc.nextArrival = s.lc.nextArrival := by rw [failedBringup_lc]
    have hexchange : (s.failedBringup k .accountState).lc.exchange = s.lc.exchange := by rw [failedBringup_lc]
    rw [h]
    exact linkControl_eq_of_exchange hnext hexchange

theorem linkVol_endBringup (hk : 1 ≤ k ∧ k ≤ 384) (s : State) :
    ((s.endBringup k).linkVol k).clearBringup = (s.linkVol k).clearBringup ∧
      ((s.endBringup k).linkVol k).probe = (s.linkVol k).probe := by
  rcases endBringup_cases s k with ⟨h, -⟩ | ⟨h, -⟩
  · rw [h]
    exact ⟨rfl, rfl⟩
  · obtain ⟨-, hvol, -⟩ := failBringup_left hk (.inr rfl) s
    rw [h, hvol]
    exact ⟨rfl, rfl⟩

/-- The retained link record of an unloaded slot (R17). -/
def LinkRetained.unloaded (l : LinkRetained) : LinkRetained := { l with state := .absent, kitId := none, placement := none }

theorem unloaded_quit_dropAbsentKit (l : LinkRetained) : l.quit.dropAbsentKit.unloaded = l.unloaded := by
  unfold LinkRetained.dropAbsentKit LinkRetained.quit
  cases hs : l.state <;> simp only [hs] <;> split <;> rfl

theorem link_endBringup (hk : 1 ≤ k ∧ k ≤ 384) (s : State) : ((s.endBringup k).link k).unloaded = (s.link k).unloaded := by
  rcases endBringup_cases s k with ⟨h, -⟩ | ⟨h, -⟩
  · rw [h]
  · obtain ⟨hlink, -⟩ := failBringup_left hk (.inr rfl) s
    rw [h, hlink, unloaded_quit_dropAbsentKit]

theorem failBringup_ret (s : State) (cause : FailCause) : (s.failBringup k cause).ret.calendar = (s.quitBringup k).ret.calendar := by
  have howe (t : State) : (t.oweDecline k cause).ret.calendar = t.ret.calendar := by cases cause <;> rfl
  rw [failBringup_eq, howe, State.failedBringup, State.hand_ret]
  rfl

theorem dropAbsentKit_placement (l : LinkRetained) : l.dropAbsentKit.placement = l.placement := by
  unfold LinkRetained.dropAbsentKit
  split <;> rfl

/-- However a bring-up ends, the link's cells are freed (R17). -/
theorem endBringup_release_calendar (hk : 1 ≤ k ∧ k ≤ 384) (s : State) (i : Nat) :
    ((s.endBringup k).release k).ret.calendar[i]? = (s.release k).ret.calendar[i]? := by
  rcases endBringup_cases s k with ⟨h, -⟩ | ⟨h, -⟩
  · rw [h]
  · obtain ⟨hlink, -⟩ := failBringup_left hk (.inr rfl) s
    have hplacement : ((s.failBringup k .accountState).link k).placement = (s.link k).quit.placement := by
      rw [hlink, dropAbsentKit_placement]
    rw [h, release_calendar, hplacement, failBringup_ret]
    unfold LinkRetained.quit State.quitBringup
    cases hstate : (s.link k).state with
    | bringup sub =>
      rw [if_neg (by simp)]
      rfl
    | absent => rw [release_calendar]
    | bound => rw [release_calendar]
    | silent => rw [release_calendar]

theorem probeWake_congr (hexchange : t.lc.exchange = s.lc.exchange) : t.probeWake k = s.probeWake k := by
  unfold State.probeWake
  rw [hexchange]

/-- The probe of an ended link, dropped where one is held (R160). -/
theorem probeResult_congr (hret : t.ret.accounts = s.ret.accounts) (hfp : t.fp = s.fp) (hexchange : t.lc.exchange = s.lc.exchange)
    (hprobe : (t.linkVol k).probe = (s.linkVol k).probe) : t.probeResult k = s.probeResult k := by
  have hwake : t.probeWake k = s.probeWake k := probeWake_congr hexchange
  unfold State.probeResult State.droppedCycle
  rw [hprobe, account_congr hret, hwake, hfp]

theorem exchangeWithout_one (s : State) (k : Nat) : s.exchangeWithout [k] =
    if s.probeWake k = true ∧ (s.linkVol k).probe.isSome then s.lc.exchange.map fun x => { x with kind := .probe none }
    else s.lc.exchange := by
  unfold State.exchangeWithout
  cases hx : s.lc.exchange with
  | none => simp
  | some x =>
    simp only [Option.map_some, List.mem_singleton]
    by_cases hslot : x.slot = k
    · subst hslot
      simp only [true_and]
      split <;> rfl
    · have hwake : ¬ s.probeWake k = true := fun h => hslot ((probeWake_iff hx k).1 h).2
      rw [if_neg fun h => hslot h.2.1, if_neg fun h => hwake h.1]

/-- What the end of a link leaves (R17). -/
structure LinkEnded (k : Nat) (s t : State) : Prop where
  local_ : LocalTo k s t
  link : t.link k = (s.link k).unloaded
  linkVol : t.linkVol k = { (s.linkVol k).clearBringup with probe := none }
  lc : t.lc = { s.lc with links := t.lc.links, callers := s.otherCallers k, exchange := s.exchangeWithout [k] }
  calendar : ∀ i : Nat, t.ret.calendar[i]? = (s.release k).ret.calendar[i]?
  ru : t.ru = (s.handAll (s.endAdvisory k ++ (s.probeResult k).toList)).ru

theorem linkEnded_endLink (hk : 1 ≤ k ∧ k ≤ 384) (s : State) : LinkEnded k s (s.endLink k) := by
  rw [endLink_eq]
  have hbringup := localTo_endBringup s k
  have hreleased := hbringup.trans (localTo_release _ k)
  have hdropped := hreleased.trans (localTo_dropProbe _ k)
  have hmapped := hdropped.trans (localTo_mapLink _ k fun l => { l with state := .absent, kitId := none })
  obtain ⟨hclear, hprobe⟩ := linkVol_endBringup hk s
  have hexchange : (s.endBringup k).lc.exchange = s.lc.exchange := by rw [endBringup_lc]
  have hrprobe : (((s.endBringup k).release k).linkVol k).probe = (s.linkVol k).probe := by rw [linkVol_release, hprobe]
  have hrexchange : ((s.endBringup k).release k).lc.exchange = s.lc.exchange := by rw [release_lc, hexchange]
  refine ⟨hmapped.trans (localTo_leaveQueue _ k), ?_, ?_, ?_, ?_, ?_⟩
  · rw [link_leaveQueue hk, link_mapLink_self hk, link_dropProbe, link_release, if_pos rfl]
    exact (if_pos rfl).trans (link_endBringup hk s)
  · rw [linkVol_leaveQueue hk, linkVol_mapLink, linkVol_dropProbe, if_pos rfl, linkVol_release, ← hclear]
    rfl
  · have hnext : ((((s.endBringup k).release k).dropProbe k).lc.nextArrival) = s.lc.nextArrival := by
      rw [dropProbe_frame]
      change ((s.endBringup k).release k).lc.nextArrival = _
      rw [release_lc, endBringup_lc]
    have hcallers := hmapped.callers
    have hdexchange : (((s.endBringup k).release k).dropProbe k).lc.exchange = s.exchangeWithout [k] := by
      rw [exchange_dropProbe, exchangeWithout_one, exchangeWithout_one, hrprobe, hrexchange,
        probeWake_congr hrexchange]
    rw [← hcallers, ← hdexchange]
    exact linkControl_eq hnext
  · intro i
    rw [leaveQueue_calendar]
    change (((s.endBringup k).release k).dropProbe k).ret.calendar[i]? = _
    rw [dropProbe_ret, endBringup_release_calendar hk]
  · rw [leaveQueue_ru, handAll_append]
    change (((s.endBringup k).release k).dropProbe k).ru = _
    have halike : ReportsAlike (s.handAll (s.endAdvisory k)) ((s.endBringup k).release k) := by
      refine ⟨?_, ?_, ?_⟩
      · rw [release_frame]
        exact endBringup_ru s k
      · rw [hreleased.fp, State.handAll_fp]
      · rw [hreleased.clock, State.handAll_ret]
    rw [(reportsAlike_dropProbe _ k).ru, probeResult_congr hreleased.accounts hreleased.fp hrexchange hrprobe, (halike.handAll _).ru]

/-! ### The closing of the slot (R16) -/

theorem unloadPending_some {g : PendingGrant} (h : a.pendingGrant = some g) : a.unloadPending =
    ({ a with
        balance := min (a.balance + (g.amount - min g.amount a.arrears)) maxWh
        arrears := a.arrears - min g.amount a.arrears
        pendingGrant := none
        q := if g.sent then a.q else seqPred a.q },
      clampNotices (a.balance + (g.amount - min g.amount a.arrears))) := by
  simp only [Account.unloadPending, h, Account.returnToBalance_eq]

theorem unloadPending_none (h : a.pendingGrant = none) : a.unloadPending = (a, []) := by simp only [Account.unloadPending, h]

theorem periodExpired_mapUseCount (s : State) (n : Nat) (g : Nat → Nat) (b : Account) :
    (s.mapUseCount n g).periodExpired b = s.periodExpired b := by
  have hperiod : ((s.mapUseCount n g).planOf b).periodLength = (s.planOf b).periodLength := by
    unfold State.planOf
    rw [plan_mapUseCount]
    split
    · cases s.plan b.plan <;> rfl
    · rfl
  unfold State.periodExpired
  rw [hperiod]
  rfl

theorem periodExpired_congr (hplans : t.ret.plans = s.ret.plans) (hclock : t.ret.clock = s.ret.clock) (b : Account) :
    t.periodExpired b = s.periodExpired b := by
  unfold State.periodExpired State.planOf
  rw [hclock, plan_congr hplans]

/-- Settles O36: the link is ended first, with its records, and then the slot is closed. -/
theorem unloadAccountClosesSlot : Obligations.UnloadAccountClosesSlot := by
  intro s f rest e a h ha hc v amount q pay sum clamp refusal final advisory probe
  have hk := account_range ha
  let u := s.setRxQueue rest
  have hended : LinkEnded f.slot u (u.endLink f.slot) := linkEnded_endLink hk u
  generalize hw : u.endLink f.slot = w at hended
  let t : State := { (w.mapUseCount a.plan (· - 1)).setAccount f.slot none with ru := s.ru }
  refine ⟨t, ?_, ?_, fun k hne => ?_, fun p hp => ?_, fun n hn => ?_, ?_, fun k hne => ?_, fun p hp i hi => ?_, fun i hi => ?_, ?_, ?_⟩
  · have hlc : w.lc = { s.lc with
        links := w.lc.links
        callers := s.lc.callers.filter fun c => c.slot != f.slot
        exchange := if s.probeWake f.slot = true ∧ v.probe.isSome then s.lc.exchange.map fun x => { x with kind := .probe none }
          else s.lc.exchange } := by
      rw [hended.lc, exchangeWithout_one]
      rfl
    have hret : w.ret = { s.ret with calendar := w.ret.calendar, links := w.ret.links } := by rw [hended.local_.frame]; rfl
    have hframe (ret : Retained) : ({ w with ret := ret, ru := s.ru } : State) =
        { s with ret := ret, tp := { s.tp with queue := rest }, lc := w.lc } := by rw [hended.local_.frame]; rfl
    refine (hframe t.ret).trans ?_
    have htret : t.ret = { w.ret with accounts := t.ret.accounts, plans := t.ret.plans } := rfl
    rw [hret] at htret
    have hboth {ret ret' : Retained} {lc lc' : LinkControl} (hr : ret = ret') (hl : lc = lc') :
        ({ s with ret := ret, tp := { s.tp with queue := rest }, lc := lc } : State) =
          { s with ret := ret', tp := { s.tp with queue := rest }, lc := lc' } := by rw [hr, hl]
    exact hboth htret hlc
  · change ((w.mapUseCount a.plan (· - 1)).setAccount f.slot none).account f.slot = none
    rw [account_setAccount, if_pos ⟨rfl, hk⟩]
  · change ((w.mapUseCount a.plan (· - 1)).setAccount f.slot none).account k = _
    rw [account_setAccount, if_neg fun hj => hne hj.1]
    exact account_congr hended.local_.accounts k
  · change (w.mapUseCount a.plan (· - 1)).plan a.plan = _
    rw [plan_mapUseCount, if_pos rfl, plan_congr hended.local_.plans, show u.plan a.plan = _ from hp]
    rfl
  · change (w.mapUseCount a.plan (· - 1)).plan n = _
    rw [plan_mapUseCount, if_neg hn]
    exact plan_congr hended.local_.plans n
  · exact hended.link
  · exact ⟨hended.local_.link k hne, hended.local_.linkVol k hne⟩
  · change (w.ret.calendar[i]?).join = none
    rw [hended.calendar, release_calendar]
    split
    · rfl
    · next hout =>
      have hi : ¬ i < 1536 := fun hlt => hout ⟨⟨p, hp, by assumption⟩, hlt⟩
      rw [Vector.getElem?_eq_none (Nat.not_lt.1 hi)]
      rfl
  · change w.ret.calendar[i]? = _
    rw [hended.calendar, release_calendar, if_neg]
    · rfl
    · rintro ⟨⟨p, hp, hmem⟩, -⟩
      exact hi p hp hmem
  · exact hended.linkVol
  · let held : Account := { a.unloadPending.1 with withdrawn := none, relay := none }
    let closed : State := (w.mapUseCount a.plan (· - 1)).setAccount f.slot none
    have hexec : exec .unloadAccount s = .next (closed.handAll (noticeRecords f.tag f.slot a.unloadPending.2 ++
        a.unloadRelay f.slot ++ [⟨f.tag, f.slot, .image held ((w.mapUseCount a.plan (· - 1)).periodExpired held)⟩])) := by
      refine h.exec_ok ?_
      change actUnloadAccount e.mode f u = _
      unfold actUnloadAccount
      rw [if_neg (not_not.2 hc), withAccount_some (show u.account f.slot = some a from ha), hw]
    have himage : (w.mapUseCount a.plan (· - 1)).periodExpired held = s.periodExpired held := by
      rw [periodExpired_mapUseCount]
      exact periodExpired_congr hended.local_.plans hended.local_.clock held
    have hpending : noticeRecords f.tag f.slot a.unloadPending.2 = clamp ∧ held = final := by
      cases hg : a.pendingGrant with
      | none =>
        simp only [clamp, final, held, amount, q, pay, sum, hg, unloadPending_none hg]
        simp [noticeRecords]
      | some g =>
        simp only [clamp, final, held, amount, q, pay, sum, hg, unloadPending_some hg, noticeRecords_clamp]
        simp only [maxWh, seqPred, Option.isSome_some, true_and, if_true]
        exact ⟨if_congr Iff.rfl rfl rfl, trivial⟩
    have hadvisory : u.endAdvisory f.slot = advisory := rfl
    have hprobe : (u.probeResult f.slot).toList = probe := by
      have hkit : ((u.account f.slot).map Account.kitId).getD 0 = a.kitId := by
        rw [show u.account f.slot = some a from ha]
        rfl
      have hdropped : u.droppedCycle f.slot = s.droppedCycle f.slot := rfl
      simp only [State.probeResult, hkit, hdropped, probe]
      change (v.probe.map _).toList = _
      cases v.probe <;> rfl
    have hrefusal : a.unloadRelay f.slot = refusal := by
      simp only [Account.unloadRelay, refusal]
      cases a.relay <;> rfl
    have hlink : t.handAll (advisory ++ probe) = closed := by
      rw [← hadvisory, ← hprobe, handAll_eq (s := u) (t := t) ⟨rfl, by exact congrArg FieldPort.cycle hended.local_.fp,
        by exact hended.local_.clock⟩, ← hended.ru]
      rfl
    rw [hexec, himage, hpending.1, hpending.2, hrefusal, List.append_assoc (advisory ++ probe), List.append_assoc (advisory ++ probe),
      handAll_append t, hlink]

end Sys2Proof.Machine
end

section
/-!
The end of a reception (R111, R115, R116): CALLs, short frames, and slots that end while a frame arrives.
-/

namespace Sys2Proof.Machine

variable {s t u : State}

/-! ### Frames that end short (R115) -/

theorem goodPayload_short {n : Nat} {decoded : List (Option Decoded)} (h : decoded.length ≠ n) : goodPayload n decoded = none :=
  if_neg fun hd => h hd.1

theorem decodeBlocks_length (n : Nat) (blocks : List Block) : (decodeBlocks n blocks).length = blocks.length := List.length_mapIdx

/-- A frame that ends short has no good payload (R115). -/
theorem arrival_short {r : FieldReception} {blocks : List Block} (h : blocks.length < r.blockCount) (first : Bool) :
    (r.arrival blocks first).payload = none := by
  have hlength : (decodeBlocks r.blockCount (blocks.take r.blockCount)).length ≠ r.blockCount := by
    rw [decodeBlocks_length, List.length_take]
    omega
  simp only [FieldReception.arrival, goodPayload_short hlength]
  rfl

/-- The state with a short frame counted (R115). -/
def State.countShort (s : State) (r : FieldReception) (blocks : List Block) : State :=
  if blocks.length < r.blockCount then s.bump .shortFrames else s

theorem countShort_of_whole {r : FieldReception} {blocks : List Block} (h : r.blockCount ≤ blocks.length) : s.countShort r blocks = s :=
  if_neg (Nat.not_lt.2 h)

theorem countShort_frame (s : State) (r : FieldReception) (blocks : List Block) :
    s.countShort r blocks = { s with counters := (s.countShort r blocks).counters } := by
  unfold State.countShort
  split <;> rfl

/-- The end of a frame in a contention slot (R111, R116). -/
theorem endFrame_contention {r : FieldReception} {n : Nat} (hplace : s.fp.place = .contention n) (hreception : s.fp.reception = some r)
    (blocks : List Block) : s.endFrame blocks =
      State.endCall { s.countShort r blocks with fp := { s.fp with reception := none } } (r.arrival blocks false) r.word := by
  unfold State.countShort
  by_cases hshort : blocks.length < r.blockCount
  · simp only [State.endFrame, hreception, if_pos hshort, State.bump, hplace, State.setFp]
  · simp only [State.endFrame, hreception, if_neg hshort, hplace, State.setFp]

/-- The end of a frame in a data slot: the first of its window is the exchange's (R116, R128). -/
theorem endFrame_data {r : FieldReception} {n : Nat} (hplace : s.fp.place = .data n) (hreception : s.fp.reception = some r)
    (blocks : List Block) : s.endFrame blocks =
      let t : State := { s.countShort r blocks with fp := { s.fp with reception := none, recordMade := true } }
      if s.fp.recordMade then t else t.exchangeOutcome (some (r.arrival blocks true)) := by
  unfold State.countShort
  by_cases hshort : blocks.length < r.blockCount
  · simp only [State.endFrame, hreception, if_pos hshort, State.bump, hplace, State.setFp]
    cases s.fp.recordMade <;> rfl
  · simp only [State.endFrame, hreception, if_neg hshort, hplace, State.setFp]
    cases s.fp.recordMade <;> rfl

/-! ### Slots that end with a frame in reception (R104, R116) -/

/-- A slot start after a slot's end that cut something off, taken in two steps. -/
theorem slotStart_cut {blocks : List Block} {p : Place} (hpower : s.powered = true) (hbusy : s.fp.busy = false)
    (hnext : s.fp.place.nextSlot s.ret.active.contentionCount = some p) (hcut : s.endSlot blocks = u) (hupower : u.powered = true)
    (hplace : u.fp.place = s.fp.place) (hactive : u.ret.active = s.ret.active) (hreception : u.fp.reception = none)
    (hended : u.fp = u.fp.ended) : exec (.slotStart blocks) s = exec (.slotStart []) u := by
  have hubusy : u.fp.busy = false := by rw [hended]; rfl
  have hwindow : u.fp.window = .closed := by rw [hended]; rfl
  have hunext : u.fp.place.nextSlot u.ret.active.contentionCount = some p := by rw [hplace, hactive, hnext]
  rw [slotStart_eq hpower hbusy hnext, hcut, slotStart_eq hupower hubusy hunext, endSlot_quiet hreception hwindow, ← hended]

/-! ### CALLs (R111, R134 to R136) -/

theorem slotOfKit_eq (hunique : s.KitIdsUnique) {k : Nat} {a : Account} (ha : s.account k = some a) : s.slotOfKit a.kitId = some k := by
  obtain ⟨j, hj⟩ := Option.isSome_iff_exists.1 (slotOfKit_isSome_iff.2 ⟨k, a, ha, rfl⟩)
  obtain ⟨b, hb, hkit⟩ := slotOfKit_some hj
  rw [hj, hunique.2 j k b a hb ha hkit]

theorem slotOfKit_unknown {kitId : Nat} (h : ∀ k a, s.account k = some a → a.kitId ≠ kitId) : s.slotOfKit kitId = none := by
  rw [← Option.not_isSome_iff_eq_none, slotOfKit_isSome_iff]
  rintro ⟨k, a, ha, hkit⟩
  exact h k a ha hkit

theorem takeCall_unknown {kitId : Nat} (h : s.slotOfKit kitId = none) (urgency : Nat) :
    s.takeCall kitId urgency = (s.bump .unknownCalls).hand ⟨0, 0, .unknownKit kitId urgency⟩ := by
  simp only [State.takeCall, h]

theorem takeCall_queued {kitId slot : Nat} {c : Caller} (h : s.slotOfKit kitId = some slot)
    (hc : (s.lc.callers.find? fun c => c.kitId == kitId) = some c) (urgency : Nat) :
    s.takeCall kitId urgency = if urgency < c.urgency then
        s.setCallers (insertCaller { c with urgency := urgency } (s.lc.callers.filter fun d => d.kitId != kitId))
      else s := by
  simp only [State.takeCall, h, hc]

theorem takeCall_new {kitId slot : Nat} (h : s.slotOfKit kitId = some slot)
    (hc : (s.lc.callers.find? fun c => c.kitId == kitId) = none) (urgency : Nat) :
    s.takeCall kitId urgency = if s.lc.callers.length < 8 then
        (({ s with lc := { s.lc with
            callers := insertCaller ⟨kitId, slot, urgency, s.lc.nextArrival, none, false⟩ s.lc.callers
            nextArrival := s.lc.nextArrival + 1 } } : State).mapLink slot fun l => { l with kitId := some kitId }).mapLinkVol slot
          fun v => { v.clearBringup with progress := some .waiting }
      else (s.bump .callsDropped).raise .callerOverflow := by
  simp only [State.takeCall, h, hc]

/-- Settles O59: the CALL is compared, admitted and taken in turn. -/
theorem callsAreQueued : Obligations.CallsAreQueued := by
  intro s blocks n r hplace hreception u
  have hend := endFrame_contention hplace hreception blocks
  refine ⟨fun hshort => arrival_short hshort false, fun hnone => ?_, fun payload hwhole hpayload hunique => ?_⟩
  · intro t
    have ht : s.endFrame blocks = t := by
      rw [hend]
      simp only [State.endCall, hnone, State.countShort, t]
      split <;> rfl
    have htfp : t.fp = u.fp := by simp only [t]; split <;> rfl
    have htret : t.ret = s.ret := by simp only [t]; split <;> rfl
    have htpower : t.powered = s.powered := by simp only [t]; split <;> rfl
    refine ⟨congrArg _ ht, congrArg _ ht, fun hpower hbusy => ?_⟩
    obtain ⟨p, hnext⟩ : ∃ p, s.fp.place.nextSlot s.ret.active.contentionCount = some p := by rw [hplace]; exact ⟨_, rfl⟩
    have htplace : t.fp.place = s.fp.place := by rw [htfp]
    have htreception : t.fp.reception = none := by rw [htfp]
    refine slotStart_cut hpower hbusy hnext ?_ (htpower.trans hpower) htplace (congrArg Retained.active htret) htreception rfl
    unfold State.endSlot
    split
    · rw [ht]
      rfl
    · next h => rw [hreception] at h; cases h
  · intro kitId urgency outcome matching callsOpen unqueued
    have hframe : s.endFrame blocks = u.endCall (r.arrival blocks false) r.word := by rw [hend, countShort_of_whole hwhole]
    have htakes : u.fp.takesCalls = true ↔ callsOpen := by
      simp only [FieldPort.takesCalls, Bool.and_eq_true, beq_iff_eq]
      rfl
    have hcall : s.endFrame blocks = if ¬ matching then u.bump .contentionCollisions
        else if u.fp.takesCalls then u.takeCall kitId urgency else u.bump .callsDropped := by
      rw [hframe]
      simp only [State.endCall, hpayload]
      rfl
    have houtcome {t : State} (h : s.endFrame blocks = t) : outcome t := congrArg _ h
    refine ⟨fun hm => houtcome ?_, fun hm ho => houtcome ?_, fun hm ho => ?_⟩
    · rw [hcall, if_pos hm]
    · rw [hcall, if_neg (not_not.2 hm), if_neg (mt htakes.1 ho)]
    · have htaken : s.endFrame blocks = u.takeCall kitId urgency := by rw [hcall, if_neg (not_not.2 hm), if_pos (htakes.2 ho)]
      refine ⟨fun hunknown => houtcome ?_, fun k a ha hkit => ?_⟩
      · rw [htaken, takeCall_unknown (s := u) (slotOfKit_unknown (s := s) hunknown)]
      · have hslot : u.slotOfKit kitId = some k := by rw [← hkit]; exact slotOfKit_eq (s := s) hunique ha
        have hnone (h : unqueued) : (u.lc.callers.find? fun c => c.kitId == kitId) = none :=
          List.find?_eq_none.2 fun c hc => by simpa using h c hc
        refine ⟨fun hun hroom => ⟨houtcome ?_, insertCaller_perm _ _⟩, fun hun hfull => houtcome ?_, fun c hc =>
          ⟨fun hurgent => houtcome ?_, fun hurgent => ⟨houtcome ?_, insertCaller_perm _ _⟩⟩⟩
        · rw [htaken, takeCall_new hslot (hnone hun), if_pos (by exact hroom)]
          rfl
        · rw [htaken, takeCall_new hslot (hnone hun), if_neg (by exact Nat.not_lt.2 hfull)]
        · rw [htaken, takeCall_queued hslot (by exact hc), if_neg (Nat.not_lt.2 hurgent)]
        · rw [htaken, takeCall_queued hslot (by exact hc), if_pos hurgent]
          rfl

end Sys2Proof.Machine
end

section
/-!
The header tests (R108, R111, R114, R120): which headers are looked at, the verdict on each, and the close of a late window.
-/

namespace Sys2Proof.Machine

variable {s t : State}

/-! ### Headers looked at (R108, R114, R120) -/

/-- Whether the place of the cycle and the window let a header in (R108, R114). -/
def FieldPort.admitsHeader (fp : FieldPort) : Bool :=
  match fp.place with
  | .beacon | .contention _ => true
  | .data _ => fp.window != ReplyWindow.closed
  | .started | .cycleBegun | .gap => false

theorem hears_iff {fp : FieldPort} {outside : Bool} : fp.hears outside = true ↔
    (outside = false ∧ fp.status = .claimed ∧ fp.effective ≠ .quiet ∧ fp.downlink = .silent ∧ fp.reception = none) ∧
      fp.admitsHeader = true := by
  simp only [FieldPort.hears, FieldPort.admitsHeader, Bool.and_eq_true, Bool.not_eq_true', beq_iff_eq, bne_iff_ne,
    Option.isNone_iff_eq_none, and_assoc] <;> rfl

theorem headerBlock_unheard (word : BitVec 16) {block : HeaderBlock} (h : ¬ s.fp.hears block.outside = true) :
    exec (.fieldHeaderBlock word block) s = .next s := by
  change execFieldHeaderBlock word block s = _
  rw [execFieldHeaderBlock, if_neg]
  simpa using fun _ => by simpa using h

theorem headerBlock_heard (word : BitVec 16) {block : HeaderBlock} (hpower : s.powered = true) (h : s.fp.hears block.outside = true) :
    exec (.fieldHeaderBlock word block) s = .next (s.takeHeader word block.bytes).settleLateHeader := by
  change execFieldHeaderBlock word block s = _
  rw [execFieldHeaderBlock, if_pos (by rw [hpower, h]; rfl)]

/-! ### The verdict on a header (R114) -/

section verdict

variable {fp : FieldPort} {word : BitVec 16} {block : Block} {d : Decoded}

theorem judgeHeader_undecoded (h : decodeBlock 8 block = none) : fp.judgeHeader word block = .failed := by
  simp only [FieldPort.judgeHeader, h]

theorem judgeHeader_long (h : decodeBlock 8 block = some d) (hcount : 4 < byteAt d.data 6) : fp.judgeHeader word block = .failed := by
  simp only [FieldPort.judgeHeader, h]
  exact if_pos hcount

/-- Whether a header is addressed to the node in this cycle (R114 tests 2 and 3). -/
def FieldPort.addressed (fp : FieldPort) (d : Decoded) : Prop :=
  field d.data 1 2 = fp.idInEffect ∧ byteAt d.data 5 % 64 = fp.cycle % 64

theorem judgeHeader_foreign (h : decodeBlock 8 block = some d) (hcount : byteAt d.data 6 ≤ 4)
    (hforeign : ¬ fp.addressed d ∨ ∀ k, UpKind.ofCode (byteAt d.data 0) = some k → k.inPlace fp.place = false) :
    fp.judgeHeader word block = .foreign := by
  have hlong : ¬ 4 < (FieldHeader.read d.data).blockCount := Nat.not_lt.2 hcount
  simp only [FieldPort.judgeHeader, h, if_neg hlong]
  split
  · rfl
  · next hid =>
    split
    · rfl
    · next hcycle =>
      have hplace := hforeign.resolve_left fun hno => hno ⟨not_not.1 hid, not_not.1 hcycle⟩
      split
      · rfl
      · next k hk => rw [if_neg (by rw [hplace k hk]; exact Bool.false_ne_true)]

theorem judgeHeader_passed {k : UpKind} (h : decodeBlock 8 block = some d) (hcount : byteAt d.data 6 ≤ 4) (hours : fp.addressed d)
    (hk : UpKind.ofCode (byteAt d.data 0) = some k) (hplace : k.inPlace fp.place = true) : fp.judgeHeader word block =
      .passed ⟨k, byteAt d.data 3 % 2 * 256 + byteAt d.data 4, byteAt d.data 6, d.data.getD 7 0, d.corrected, word⟩ := by
  obtain ⟨hid, hcycle⟩ := hours
  simp only [FieldPort.judgeHeader, h, FieldHeader.read, Nat.not_lt.2 hcount, if_false, hid, hcycle, ne_eq, not_true_eq_false, hk,
    hplace, if_true]

theorem inPlace_iff {k : UpKind} {p : Place} : k.inPlace p = true ↔
    k = .call ∧ (∃ n, p = .contention n) ∨ (k = .report ∨ k = .ability ∨ k = .confirm ∨ k = .echo) ∧ ∃ n, p = .data n := by
  cases k <;> cases p <;> simp [UpKind.inPlace]

end verdict

/-! ### The close of a late window (R104) -/

/-- The state after a header whose window, if it ran out, closes without a MISS. -/
theorem settleLateHeader_eq (hwindow : t.fp.window = s.fp.window)
    (hended : s.fp.window = .lateHeader → t.fp.reception.isSome = true ∨ t.fp.recordMade = true ∨ t.lc.exchange = none) :
    t.settleLateHeader = { t with fp := { t.fp with window := if s.fp.window = .lateHeader then .closed else s.fp.window } } := by
  unfold State.settleLateHeader
  rw [hwindow]
  by_cases hlate : s.fp.window = .lateHeader
  · rw [if_pos hlate, if_pos hlate]
    dsimp only
    split
    · rfl
    · next hnone =>
      unfold State.noReply
      split
      · rfl
      · next hmade =>
        have hexchange : t.lc.exchange = none := by
          rcases hended hlate with h | h | h
          · exact absurd h hnone
          · exact absurd h hmade
          · exact h
        unfold State.exchangeOutcome
        split
        · rfl
        · next e he => rw [show t.lc.exchange = some e from he] at hexchange; cases hexchange
  · rw [if_neg hlate, if_neg hlate, ← hwindow]

/-- Settles O55: the verdict of the header tests, and the window closed where it ran out. -/
theorem headerBlockTests : Obligations.HeaderBlockTests := by
  intro s word block hpower heard contention data late ended outcome
  refine ⟨fun h => headerBlock_unheard word fun hheard => ?_, fun hheard hplace => ?_⟩
  · obtain ⟨⟨houtside, hstatus, hquiet, -, -⟩, hadmits⟩ := hears_iff.1 hheard
    rcases h with h | h | h | ⟨⟨n, hn⟩, hw⟩
    · rw [houtside] at h
      cases h
    · exact h hstatus
    · exact hquiet h
    · simp [FieldPort.admitsHeader, hn, hw] at hadmits
  · have hadmits : s.fp.admitsHeader = true := by
      unfold FieldPort.admitsHeader
      rcases hplace with ⟨h, -⟩ | ⟨⟨n, h⟩, -⟩ | ⟨⟨n, h⟩, hw⟩
      · rw [h]
      · rw [h]
      · have hopen : s.fp.window ≠ .closed := by
          rcases hw with hw | hw
          · rw [hw]
            decide
          · rw [show s.fp.window = .lateHeader from hw]
            decide
        rw [h]
        exact bne_iff_ne.2 hopen
    have hexec := headerBlock_heard word hpower (hears_iff.2 ⟨hheard, hadmits⟩)
    have hkept {t : State} (hw : t.fp.window = s.fp.window) (hr : t.fp.recordMade = s.fp.recordMade)
        (hx : t.lc.exchange = s.lc.exchange) (hended : ended) (ht : s.takeHeader word block.bytes = t) : outcome t := by
      refine hexec.trans ?_
      rw [ht, settleLateHeader_eq hw fun hlate => .inr (by rw [hr, hx]; exact hended hlate)]
    have hfailed (hverdict : s.fp.judgeHeader word block.bytes = .failed) (hended : ended) :
        (contention → outcome (s.bump .contentionCollisions)) ∧ (data → outcome (s.bump .headerFails)) ∧
          (s.fp.place = .beacon → outcome s) := by
      have ht : s.takeHeader word block.bytes = s.countHeaderFail := by simp only [State.takeHeader, hverdict]
      refine ⟨?_, ?_, fun hb => ?_⟩
      · rintro ⟨n, hn⟩
        exact hkept rfl rfl rfl hended (ht.trans (by simp only [State.countHeaderFail, hn]))
      · rintro ⟨n, hn⟩
        exact hkept rfl rfl rfl hended (ht.trans (by simp only [State.countHeaderFail, hn]))
      · exact hkept rfl rfl rfl hended (ht.trans (by simp only [State.countHeaderFail, hb]))
    refine ⟨fun hnone => hfailed (judgeHeader_undecoded hnone), fun d hd => ?_⟩
    intro kind count ours inPlace
    have hin {k : UpKind} (hk : kind = some k) : k.inPlace s.fp.place = true ↔ inPlace := by
      rw [inPlace_iff]
      simp only [inPlace, hk, Option.some.injEq]
      rfl
    refine ⟨fun hcount => hfailed (judgeHeader_long hd hcount), fun hcount hforeign hended => ?_, fun hcount hours hplace k hk => ?_⟩
    · have hverdict : s.fp.judgeHeader word block.bytes = .foreign := by
        refine judgeHeader_foreign hd hcount (hforeign.imp id fun hno k hk => ?_)
        rw [← Bool.not_eq_true, hin hk]
        exact hno
      exact hkept rfl rfl rfl hended (by simp only [State.takeHeader, hverdict])
    · intro address
      have ht : s.takeHeader word block.bytes = { s with fp := { s.fp with
          reception := some ⟨k, address, count, d.data.getD 7 0, d.corrected, word⟩ } } := by
        simp only [State.takeHeader, judgeHeader_passed hd hcount hours hk ((hin hk).2 hplace)]
        rfl
      refine hexec.trans (congrArg _ ?_)
      rw [ht]
      exact settleLateHeader_eq (s := s) rfl fun _ => .inl rfl

end Sys2Proof.Machine
end

section
/-!
Data slots (R126, R127, R132, R133, R140, R151): wakes on a kit's cell, and the caller served in a free cell.
-/

namespace Sys2Proof.Machine

variable {s t : State}

/-! ### The start of a data slot (R102, R118, R126) -/

/-- The Field Port in a data slot that starts under RUN or DRAIN. -/
def FieldPort.inData (fp : FieldPort) (n : Nat) (mode : Mode) : FieldPort :=
  { fp with place := .data n, effective := mode, window := .closed, recordMade := false, downlink := .silent }

theorem dataSlot_eq {n : Nat} (hpower : s.powered = true) (hbusy : s.fp.busy = false) (hreception : s.fp.reception = none)
    (hwindow : s.fp.window = .closed) (hnext : s.fp.place.nextSlot s.ret.active.contentionCount = some (.data n))
    (hmode : effectiveMode s.fp.idInEffect s.ru.escalated s.ret.requested ≠ .quiet) (cut : List Block) :
    exec (.slotStart cut) s = .next (State.useDataSlot
      { s with fp := s.fp.inData n (effectiveMode s.fp.idInEffect s.ru.escalated s.ret.requested) } n) := by
  have hbegun : State.slotBegun { s with fp := s.fp.ended } (.data n) =
      { s with fp := s.fp.inData n (effectiveMode s.fp.idInEffect s.ru.escalated s.ret.requested) } := by
    have hquiet : (effectiveMode s.fp.idInEffect s.ru.escalated s.ret.requested == .quiet) = false := by
      simpa using hmode
    simp only [State.slotBegun, State.evalMode, State.noteQuiet, State.setFp, FieldPort.ended, FieldPort.inData, hquiet,
      Bool.and_false, Bool.or_false]
  rw [slotStart_eq hpower hbusy hnext, endSlot_quiet hreception hwindow, beginSlot_data, hbegun]

section used

variable {n slot : Nat} (hstatus : s.fp.status = .claimed) (hmode : s.fp.effective ≠ .quiet)
include hstatus hmode

theorem useDataSlot_free (hcell : s.cell (s.fp.cycle % 64) n = none) : s.useDataSlot n = s.serveFreeCell := by
  unfold State.useDataSlot
  rw [if_pos ⟨hstatus, hmode⟩]
  simp only [hcell]

theorem useDataSlot_offered (hcell : s.cell (s.fp.cycle % 64) n = some slot) (hlink : (s.link slot).state = .bringup .offered) :
    s.useDataSlot n = s.serveFreeCell := by
  unfold State.useDataSlot
  rw [if_pos ⟨hstatus, hmode⟩]
  simp only [hcell, hlink]

theorem useDataSlot_wakes (hcell : s.cell (s.fp.cycle % 64) n = some slot)
    (hlink : (s.link slot).state = .bound ∨ (s.link slot).state = .silent) : s.useDataSlot n = s.startWake slot := by
  unfold State.useDataSlot
  rw [if_pos ⟨hstatus, hmode⟩]
  rcases hlink with h | h <;> simp only [hcell, h]

theorem useDataSlot_confirmed (hcell : s.cell (s.fp.cycle % 64) n = some slot) (hlink : (s.link slot).state = .bringup .confirmed) :
    s.useDataSlot n = s.startPoll slot := by
  unfold State.useDataSlot
  rw [if_pos ⟨hstatus, hmode⟩]
  simp only [hcell, hlink]

end used

/-! ### Frames handed over (R104, R112, R120) -/

theorem handDown_keyed (h : s.fp.quieted = false) (f : DownFrame) (e : Exchange) : s.handDown f e =
    { s with fp := { s.fp with downlink := .handed f }, lc := { s.lc with exchange := some e } } := by
  simp only [State.handDown, h, Bool.false_eq_true, if_false]

theorem handDown_quieted (h : s.fp.quieted = true) (f : DownFrame) (e : Exchange) : s.handDown f e = s := by
  simp only [State.handDown, h, if_true]

/-- What handing a frame over changes (R104, R120). -/
theorem handDown_frame (s : State) (f : DownFrame) (e : Exchange) : s.handDown f e = { s with
    fp := { s.fp with downlink := if s.fp.quieted then s.fp.downlink else .handed f }
    lc := { s.lc with exchange := if s.fp.quieted then s.lc.exchange else some e } } := by
  cases h : s.fp.quieted with
  | true => rw [handDown_quieted h]; rfl
  | false => rw [handDown_keyed h]; rfl

@[simp] theorem handDown_ret (s : State) (f : DownFrame) (e : Exchange) : (s.handDown f e).ret = s.ret := by rw [handDown_frame]

@[simp] theorem handDown_ru (s : State) (f : DownFrame) (e : Exchange) : (s.handDown f e).ru = s.ru := by rw [handDown_frame]

@[simp] theorem handDown_callers (s : State) (f : DownFrame) (e : Exchange) : (s.handDown f e).lc.callers = s.lc.callers := by
  rw [handDown_frame]

@[simp] theorem handDown_links (s : State) (f : DownFrame) (e : Exchange) : (s.handDown f e).lc.links = s.lc.links := by
  rw [handDown_frame]

@[simp] theorem link_handDown (s : State) (f : DownFrame) (e : Exchange) (k : Nat) : (s.handDown f e).link k = s.link k :=
  link_congr (by rw [handDown_ret]) k

@[simp] theorem linkVol_handDown (s : State) (f : DownFrame) (e : Exchange) (k : Nat) : (s.handDown f e).linkVol k = s.linkVol k :=
  linkVol_congr (handDown_links s f e) k

/-! ### Wakes (R127) -/

theorem pollRequest_fp (s : State) (slot kitId : Nat) : (s.pollRequest slot kitId).1.fp = s.fp := by
  unfold State.pollRequest
  split
  · rfl
  · split
    · rw [State.setAccount_fp, State.handAll_fp]
    · rfl

theorem pollRequest_lc (s : State) (slot kitId : Nat) : (s.pollRequest slot kitId).1.lc = s.lc := by
  unfold State.pollRequest
  split
  · rfl
  · split
    · rw [State.setAccount_lc, State.handAll_lc]
    · rfl

/-- Settles O50: a wake's frame is the PROBE held or the POLL of the poll request. -/
theorem wakeSlotHandsPollOrProbe : Obligations.WakeSlotHandsPollOrProbe := by
  intro s cut n slot hpower hbusy hreception hwindow hnext hstatus mode hmode hcell l v kitId fp handed wakes
  have hexec := dataSlot_eq hpower hbusy hreception hwindow hnext hmode cut
  change exec (.slotStart cut) s = .next (State.useDataSlot { s with fp := fp } n) at hexec
  have hhanded {t : State} {f : DownFrame} {k : ExchangeKind} (hfp : t.fp = fp)
      (h : State.useDataSlot { s with fp := fp } n = t.handDown f ⟨k, slot, kitId⟩) : handed t f k := by
    have hquieted : t.fp.quieted = s.fp.quieted := by rw [hfp]
    refine ⟨fun hq => ?_, fun hq => ?_⟩
    · rw [hexec, h, handDown_keyed (hquieted.trans hq), hfp]
    · rw [hexec, h, handDown_quieted (hquieted.trans hq), ← hfp]
  refine ⟨fun p hwakes hp => ?_, fun hpoll t i hrequest => ?_⟩
  · have hwake := useDataSlot_wakes (s := { s with fp := fp }) hstatus hmode hcell hwakes
    refine hhanded (t := { s with fp := fp }) rfl (hwake.trans ?_)
    have hprobe : (State.linkVol { s with fp := fp } slot).probe = some p := hp
    simp only [State.startWake, hprobe]
    rfl
  · have hstart : State.useDataSlot { s with fp := fp } n = State.startPoll { s with fp := fp } slot := by
      rcases hpoll with ⟨hwakes, hnone⟩ | h
      · have hprobe : (State.linkVol { s with fp := fp } slot).probe = none := hnone
        rw [useDataSlot_wakes (s := { s with fp := fp }) hstatus hmode hcell hwakes]
        simp only [State.startWake, hprobe]
      · exact useDataSlot_confirmed (s := { s with fp := fp }) hstatus hmode hcell h
    have hrequest' : State.pollRequest { s with fp := fp } slot ((State.link { s with fp := fp } slot).kitId.getD 0) = (t, i) := hrequest
    have htfp : t.fp = fp := by
      have := pollRequest_fp { s with fp := fp } slot kitId
      rwa [hrequest] at this
    have htlc : t.lc = s.lc := by
      have := pollRequest_lc { s with fp := fp } slot kitId
      rwa [hrequest] at this
    refine hhanded htfp (hstart.trans ?_)
    have hv : t.linkVol slot = v := linkVol_congr (by rw [htlc]) slot
    simp only [State.startPoll, hrequest', hv]
    rfl

/-! ### The caller served (R133, R140, R151) -/

/-- A free cell, or one whose kit is at OFFERED, serves a caller (R126, R133). -/
theorem useDataSlot_serves {n : Nat} (hstatus : s.fp.status = .claimed) (hmode : s.fp.effective ≠ .quiet)
    (hcell : s.cell (s.fp.cycle % 64) n = none ∨ ∃ k, s.cell (s.fp.cycle % 64) n = some k ∧ (s.link k).state = .bringup .offered) :
    s.useDataSlot n = s.serveFreeCell := by
  rcases hcell with h | ⟨k, h, hk⟩
  · exact useDataSlot_free hstatus hmode h
  · exact useDataSlot_offered hstatus hmode h hk

/-- The state with a caller's exchange mark set (R133). -/
def State.markCaller (s : State) (slot : Nat) : State := s.mapCaller slot fun c => { c with mark := true }

section served

variable {c : Caller}

theorem serveCaller_waiting (h : (s.linkVol c.slot).progress = some .waiting) :
    s.serveCaller c = (s.markCaller c.slot).sendInvite c 1 := by
  simp only [State.serveCaller, h]
  rfl

theorem serveCaller_unpaged (h : (s.linkVol c.slot).progress = some .invited ∨ (s.linkVol c.slot).progress = some .offered)
    (hpage : (s.linkVol c.slot).page1 = none) : s.serveCaller c = (s.markCaller c.slot).sendInvite c 1 := by
  rcases h with h | h <;> simp only [State.serveCaller, h, hpage] <;> rfl

theorem serveCaller_page2 (h : (s.linkVol c.slot).progress = some .page2) (hpage : (s.linkVol c.slot).page2 = none) :
    s.serveCaller c = (s.markCaller c.slot).sendInvite c 2 := by
  simp only [State.serveCaller, h, hpage]
  cases (s.linkVol c.slot).page1 <;> rfl

theorem serveCaller_declining (h : (s.linkVol c.slot).progress = some .declining) :
    s.serveCaller c = (s.markCaller c.slot).sendDecline c := by
  simp only [State.serveCaller, h]
  rfl

theorem serveCaller_offer {p1 : Page1} (hpage : (s.linkVol c.slot).page1 = some p1)
    (h : (s.linkVol c.slot).progress = some .invited ∨ (s.linkVol c.slot).progress = some .offered ∨
      ((s.linkVol c.slot).progress = some .page2 ∧ (s.linkVol c.slot).page2.isSome)) :
    s.serveCaller c = (s.markCaller c.slot).sendOffer c p1 := by
  rcases h with h | h | ⟨h, h2⟩
  · simp only [State.serveCaller, h, hpage]
    rfl
  · simp only [State.serveCaller, h, hpage]
    rfl
  · obtain ⟨p2, h2⟩ := Option.isSome_iff_exists.1 h2
    simp only [State.serveCaller, h, hpage, h2]
    rfl

/-- The entries after the first INVITE of one (R133, R140). -/
theorem callers_beginBringup (s : State) (k : Nat) : ((s.markCaller k).beginBringup k).lc.callers = s.lc.callers.map fun d =>
    if d.slot = k then { d with startCycle := some s.fp.cycle, mark := true } else d := by
  change (s.lc.callers.map _).map _ = _
  rw [List.map_map]
  refine List.map_congr_left fun d _ => ?_
  by_cases hd : d.slot = k
  · simp [hd]
    rfl
  · simp [hd]

theorem linkVol_beginBringup {k : Nat} (hk : 1 ≤ k ∧ k ≤ 384) (s : State) :
    (s.beginBringup k).linkVol k = { s.linkVol k with progress := some .invited } := by
  rw [State.beginBringup, linkVol_mapLink, linkVol_mapLinkVol_self hk]
  rfl

theorem link_beginBringup {k : Nat} (hk : 1 ≤ k ∧ k ≤ 384) (s : State) : (s.beginBringup k).link k =
    if (s.link k).state = .absent then { s.link k with state := .bringup .invited } else s.link k := by
  rw [State.beginBringup, link_mapLink_self hk]
  rfl

theorem sendInvite_begun (h : c.startCycle.isNone = true) (page : Nat) :
    s.sendInvite c page = (s.beginBringup c.slot).handDown (inviteFrame c.kitId page) ⟨.invite page, c.slot, c.kitId⟩ := by
  simp only [State.sendInvite, h, if_true]

theorem sendInvite_started {start : Nat} (h : c.startCycle = some start) (page : Nat) :
    s.sendInvite c page = s.handDown (inviteFrame c.kitId page) ⟨.invite page, c.slot, c.kitId⟩ := by
  simp [State.sendInvite, h]

end served

/-- Settles O51: the entry found is served by its progress and pages. -/
theorem freeCellServesCaller : Obligations.FreeCellServesCaller := by
  intro s cut n hpower hbusy hreception hwindow hnext hstatus mode hmode hcell fp next
  have hexec := dataSlot_eq hpower hbusy hreception hwindow hnext hmode cut
  change exec (.slotStart cut) s = .next (State.useDataSlot { s with fp := fp } n) at hexec
  rw [useDataSlot_serves (s := { s with fp := fp }) hstatus hmode hcell] at hexec
  refine ⟨fun hnone => ?_, fun c hc => ?_⟩
  · have hfind : (({ s with fp := fp } : State).lc.callers.find? fun c =>
        !c.mark && (State.linkVol { s with fp := fp } c.slot).progress != some .confirmed) = none := hnone
    rw [hexec]
    simp only [State.serveFreeCell, hfind]
  · intro v served handed invited
    have hfind : (({ s with fp := fp } : State).lc.callers.find? fun c =>
        !c.mark && (State.linkVol { s with fp := fp } c.slot).progress != some .confirmed) = some c := hc
    have hserve : exec (.slotStart cut) s = .next (State.serveCaller { s with fp := fp } c) := by
      rw [hexec]
      simp only [State.serveFreeCell, hfind]
    generalize hm : State.markCaller { s with fp := fp } c.slot = m
    have hhanded {t : State} {f : DownFrame} {k : ExchangeKind} (hfp : t.fp = fp) (hx : t.lc.exchange = s.lc.exchange) :
        handed f k (t.handDown f ⟨k, c.slot, c.kitId⟩) := by
      rw [handDown_frame, hfp, hx]
      exact ⟨rfl, rfl⟩
    have hagain (start : Nat) (hstart : c.startCycle = some start) (page : Nat)
        (h : State.serveCaller { s with fp := fp } c = (State.markCaller { s with fp := fp } c.slot).sendInvite c page) :
        ∃ t, exec (.slotStart cut) s = .next t ∧ invited page t ∧ t.lc.callers = served none ∧ t.lc.links = s.lc.links ∧
          t.ret = s.ret := by
      rw [hserve, h, sendInvite_started hstart]
      refine ⟨_, rfl, ⟨hhanded rfl rfl, ?_, ?_⟩, ?_, ?_, ?_⟩
      · rw [handDown_ru]
        rfl
      · rw [handDown_ret]
        rfl
      · rw [handDown_callers]
        rfl
      · rw [handDown_links]
        rfl
      · rw [handDown_ret]
        rfl
    refine ⟨fun hlow hhigh hwaiting hstart => ?_, fun start hstart => ⟨fun hprogress hpage => ?_, fun hprogress hpage => ?_⟩,
      fun hdeclining => ?_⟩
    · rw [hserve, serveCaller_waiting (s := { s with fp := fp }) hwaiting, hm, sendInvite_begun (by rw [hstart]; rfl)]
      subst hm
      refine ⟨_, rfl, ⟨hhanded rfl rfl, ?_, ?_⟩, ?_, ?_, ?_⟩
      · rw [handDown_ru]
        rfl
      · rw [handDown_ret]
        rfl
      · rw [handDown_callers, callers_beginBringup]
        rfl
      · rw [linkVol_handDown, linkVol_beginBringup ⟨hlow, hhigh⟩]
        rfl
      · rw [link_handDown, link_beginBringup ⟨hlow, hhigh⟩]
        rfl
    · exact hagain start hstart 1 (serveCaller_unpaged (s := { s with fp := fp }) hprogress hpage)
    · exact hagain start hstart 2 (serveCaller_page2 (s := { s with fp := fp }) hprogress hpage)
    · have hk : 1 ≤ c.slot ∧ c.slot ≤ 384 := slot_range_of_progress (s := s) hdeclining
      rw [hserve, serveCaller_declining (s := { s with fp := fp }) hdeclining, hm]
      have hsent : m.sendDecline c = (m.handDown (declineFrame c.kitId (v.declineCause.getD .timeout)) ⟨.decline, c.slot, c.kitId⟩).leaveQueue
          c.slot := by rw [← hm]; rfl
      rw [hsent]
      subst hm
      refine ⟨_, rfl, hhanded (f := declineFrame c.kitId (v.declineCause.getD .timeout)) rfl rfl, ?_, ?_⟩
      · exact caller_of_filter_nil (by simp [State.otherCallers])
      · rw [linkVol_leaveQueue hk]
        rfl

end Sys2Proof.Machine
end

section
/-!
The OFFER (R123, R140, R144, R160): the placement taken and the frame handed over, or the failure CALENDAR_FULL.
-/

namespace Sys2Proof.Machine

variable {s t : State} {k : Nat}

theorem localTo_fillCells (s : State) (k : Nat) (p : Placement) (v : Option Nat) : LocalTo k s (s.fillCells p v) :=
  ⟨rfl, fun _ _ => rfl, fun _ _ => rfl, rfl⟩

theorem localTo_allocateProbe (s : State) (k : Nat) (former : LinkState) : LocalTo k s (s.allocateProbe k former) := by
  unfold State.allocateProbe
  split
  · exact localTo_dropProbe s k
  · exact localTo_dropProbe s k
  · exact .refl k s
  · exact .refl k s

/-- A release looks at the retained registers alone (R124). -/
theorem release_ret_congr (h : t.ret = s.ret) (k : Nat) : (t.release k).ret = (s.release k).ret := by
  have hlink : t.link k = s.link k := link_congr (by rw [h]) k
  unfold State.release
  rw [hlink]
  split
  · exact h
  · simp only [State.fillCells, State.mapLink, State.setLink, State.link, h]

theorem findPlacement_congr (h : t.ret.calendar = s.ret.calendar) (start top : Nat) :
    t.findPlacement start top = s.findPlacement start top := by
  have hfree : t.placementFree = s.placementFree := by
    funext p
    unfold State.placementFree
    rw [h]
  unfold State.findPlacement
  rw [hfree]

/-- The state after a placement is taken (R123, R160). -/
def State.allocated (s : State) (k : Nat) (q : Placement) : State :=
  ((((s.release k).fillCells q (some k)).mapLink k fun l => { l with placement := some q, state := .bringup .offered }).mapLinkVol k
    fun v => { v with progress := some .offered }).allocateProbe k (s.link k).state

/-- The state in which an allocation that found nothing fails (R123). -/
def State.unallocated (s : State) (c : Caller) : State :=
  ((s.release c.slot).handDown (declineFrame c.kitId .calendarFull) ⟨.decline, c.slot, c.kitId⟩).mapLink c.slot fun l =>
    { l with state := .absent }

theorem sendOffer_some {c : Caller} {p1 : Page1} {q : Placement}
    (h : (s.release c.slot).findPlacement (s.offerStart (s.linkVol c.slot) p1) p1.figures.maxExponent = some q) :
    s.sendOffer c p1 = (s.allocated c.slot q).handDown
      (offerFrame c.kitId c.slot q (s.allocated c.slot q).fp.idInEffect ((s.allocated c.slot q).offerDose c.slot))
      ⟨.offer, c.slot, c.kitId⟩ := by
  simp only [State.sendOffer, h]
  rfl

theorem sendOffer_none {c : Caller} {p1 : Page1}
    (h : (s.release c.slot).findPlacement (s.offerStart (s.linkVol c.slot) p1) p1.figures.maxExponent = none) :
    s.sendOffer c p1 = (s.unallocated c).failBringup c.slot .calendarFull := by
  simp only [State.sendOffer, h]
  rfl

/-! ### The placement taken -/

/-- The state before a renewal's probe is dropped. -/
def State.placed (s : State) (k : Nat) (q : Placement) : State :=
  (((s.release k).fillCells q (some k)).mapLink k fun l => { l with placement := some q, state := .bringup .offered }).mapLinkVol k
    fun v => { v with progress := some .offered }

theorem localTo_placed (s : State) (k : Nat) (q : Placement) : LocalTo k s (s.placed k q) :=
  (((localTo_release s k).trans (localTo_fillCells _ k q _)).trans (localTo_mapLink _ k _)).trans (localTo_mapLinkVol _ k _)

theorem allocated_eq (s : State) (k : Nat) (q : Placement) : s.allocated k q = (s.placed k q).allocateProbe k (s.link k).state := rfl

theorem localTo_allocated (s : State) (k : Nat) (q : Placement) : LocalTo k s (s.allocated k q) :=
  (localTo_placed s k q).trans (localTo_allocateProbe _ k _)

theorem linkVol_placed (hk : 1 ≤ k ∧ k ≤ 384) (s : State) (q : Placement) :
    (s.placed k q).linkVol k = { s.linkVol k with progress := some .offered } := by
  rw [State.placed, linkVol_mapLinkVol_self hk, linkVol_mapLink]
  change { (s.release k).linkVol k with progress := some .offered } = _
  rw [linkVol_release]

theorem placed_lc (s : State) (k : Nat) (q : Placement) : (s.placed k q).lc = { s.lc with links := (s.placed k q).lc.links } := by
  have hlinks : (s.placed k q).lc = { (s.release k).lc with links := (s.placed k q).lc.links } := rfl
  exact hlinks.trans (by rw [release_lc])

theorem placed_ru (s : State) (k : Nat) (q : Placement) : (s.placed k q).ru = s.ru := by
  change (s.release k).ru = s.ru
  rw [release_frame]

/-- The result of the probe that an allocation drops (R160). -/
def State.allocationRecords (s : State) (k : Nat) : List Report :=
  match (s.link k).state with
  | .bound | .silent => (s.probeResult k).toList
  | .absent | .bringup _ => []

theorem allocateProbe_renewing {former : LinkState} (h : former = .bound ∨ former = .silent) : s.allocateProbe k former = s.dropProbe k := by
  rcases h with rfl | rfl <;> rfl

theorem allocateProbe_first {former : LinkState} (h : ¬ (former = .bound ∨ former = .silent)) : s.allocateProbe k former = s := by
  cases former with
  | bound => exact absurd (.inl rfl) h
  | silent => exact absurd (.inr rfl) h
  | absent => rfl
  | bringup sub => rfl

theorem link_allocated (hk : 1 ≤ k ∧ k ≤ 384) (s : State) (q : Placement) :
    (s.allocated k q).link k = { s.link k with placement := some q, state := .bringup .offered } := by
  have hplaced : (s.placed k q).link k = { s.link k with placement := some q, state := .bringup .offered } := by
    rw [State.placed, link_mapLinkVol, link_mapLink_self hk]
    change { (s.release k).link k with placement := some q, state := .bringup .offered } = _
    rw [link_release, if_pos rfl]
  rw [allocated_eq]
  by_cases h : (s.link k).state = .bound ∨ (s.link k).state = .silent
  · rw [allocateProbe_renewing h, link_dropProbe, hplaced]
  · rw [allocateProbe_first h, hplaced]

theorem linkVol_allocated (hk : 1 ≤ k ∧ k ≤ 384) (s : State) (q : Placement) : (s.allocated k q).linkVol k =
    { s.linkVol k with
      progress := some .offered
      probe := if (s.link k).state = .bound ∨ (s.link k).state = .silent then none else (s.linkVol k).probe } := by
  rw [allocated_eq]
  by_cases h : (s.link k).state = .bound ∨ (s.link k).state = .silent
  · rw [allocateProbe_renewing h, linkVol_dropProbe, if_pos rfl, linkVol_placed hk, if_pos h]
  · rw [allocateProbe_first h, linkVol_placed hk, if_neg h]

theorem allocated_callers (s : State) (k : Nat) (q : Placement) : (s.allocated k q).lc.callers = s.lc.callers := by
  have hplaced : (s.placed k q).lc.callers = s.lc.callers := by rw [placed_lc]
  rw [allocated_eq]
  by_cases h : (s.link k).state = .bound ∨ (s.link k).state = .silent
  · rw [allocateProbe_renewing h, dropProbe_callers, hplaced]
  · rw [allocateProbe_first h, hplaced]

theorem allocated_calendar (s : State) (k : Nat) (q : Placement) (i : Nat) : (s.allocated k q).ret.calendar[i]? =
    if i ∈ q.cells ∧ i < 1536 then some (some k) else (s.release k).ret.calendar[i]? := by
  have hplaced : (s.placed k q).ret.calendar[i]? = if i ∈ q.cells ∧ i < 1536 then some (some k) else (s.release k).ret.calendar[i]? :=
    fillCells_calendar (s.release k) q (some k) i
  rw [allocated_eq]
  by_cases h : (s.link k).state = .bound ∨ (s.link k).state = .silent
  · rw [allocateProbe_renewing h, dropProbe_ret, hplaced]
  · rw [allocateProbe_first h, hplaced]

theorem allocated_ru (hk : 1 ≤ k ∧ k ≤ 384) (s : State) (q : Placement) : (s.allocated k q).ru = (s.handAll (s.allocationRecords k)).ru := by
  have hlocal := localTo_placed s k q
  have halike : ReportsAlike s (s.placed k q) := ⟨placed_ru s k q, by rw [hlocal.fp], hlocal.clock⟩
  rw [allocated_eq]
  by_cases h : (s.link k).state = .bound ∨ (s.link k).state = .silent
  · have hrecords : s.allocationRecords k = (s.probeResult k).toList := by
      rcases h with h | h <;> simp only [State.allocationRecords, h]
    have hexchange : (s.placed k q).lc.exchange = s.lc.exchange := by rw [placed_lc]
    rw [allocateProbe_renewing h, (reportsAlike_dropProbe _ k).ru, hrecords,
      probeResult_congr hlocal.accounts hlocal.fp hexchange (by rw [linkVol_placed hk]), (halike.handAll _).ru]
  · have hrecords : s.allocationRecords k = [] := by
      unfold State.allocationRecords
      split
      · next hs => exact absurd (.inl hs) h
      · next hs => exact absurd (.inr hs) h
      · rfl
      · rfl
    rw [allocateProbe_first h, hrecords, placed_ru]
    rfl

/-! ### No placement found -/

/-- What an allocation that found nothing leaves (R123, R150): the failure CALENDAR_FULL, its DECLINE handed over. -/
structure OfferFailed (s : State) (c : Caller) (t : State) : Prop where
  accounts : t.ret.accounts = s.ret.accounts
  plans : t.ret.plans = s.ret.plans
  tp : t.tp = s.tp
  counters : t.counters = s.counters
  others : ∀ j, j ≠ c.slot → t.link j = s.link j ∧ t.linkVol j = s.linkVol j
  fp : t.fp = { s.fp with
    downlink := if s.fp.quieted then s.fp.downlink else .handed (declineFrame c.kitId .calendarFull) }
  exchange : s.fp.quieted = false → t.lc.exchange = some ⟨.decline, c.slot, c.kitId⟩
  callers : t.lc.callers = s.otherCallers c.slot
  link : t.link c.slot = { s.link c.slot with placement := none, state := .absent, kitId := none }
  linkVol : t.linkVol c.slot = (s.linkVol c.slot).clearBringup
  calendar : t.ret.calendar = (s.release c.slot).ret.calendar
  ru : t.ru = (s.hand ⟨0, c.slot, .link ((s.link c.slot).kitId.getD 0)
    (.bringupFailed .calendarFull ((s.linkVol c.slot).progress.getD .waiting) (s.linkVol c.slot).mismatches)⟩).ru

theorem offerFailed_sendOffer {c : Caller} (hk : 1 ≤ c.slot ∧ c.slot ≤ 384) {p1 : Page1}
    (hnone : (s.release c.slot).findPlacement (s.offerStart (s.linkVol c.slot) p1) p1.figures.maxExponent = none) :
    OfferFailed s c (s.sendOffer c p1) := by
  rw [sendOffer_none hnone]
  have hreleased := localTo_release s c.slot
  generalize hy : (s.release c.slot).handDown (declineFrame c.kitId .calendarFull) ⟨.decline, c.slot, c.kitId⟩ = y
  have hun : s.unallocated c = y.mapLink c.slot fun l => { l with state := .absent } := by rw [← hy]; rfl
  rw [hun]
  generalize hx : (y.mapLink c.slot fun l => { l with state := .absent }) = x
  have hlocal : LocalTo c.slot y x := by
    rw [← hx]
    exact localTo_mapLink _ _ _
  have hyret : y.ret = (s.release c.slot).ret := by rw [← hy, handDown_ret]
  have hyfp : y.fp = { s.fp with
      downlink := if s.fp.quieted then s.fp.downlink else .handed (declineFrame c.kitId .calendarFull) } := by
    rw [← hy, handDown_frame, hreleased.fp]
  have hytp : y.tp = s.tp := by rw [← hy, handDown_frame, hreleased.frame]
  have hycounters : y.counters = s.counters := by rw [← hy, handDown_frame, hreleased.frame]
  have hxlink : x.link c.slot = { s.link c.slot with placement := none, state := .absent } := by
    rw [← hx, link_mapLink_self hk, ← hy, link_handDown, link_release, if_pos rfl]
  have hxvol : x.linkVol c.slot = s.linkVol c.slot := by rw [← hx, linkVol_mapLink, ← hy, linkVol_handDown, linkVol_release]
  have hxcallers : x.otherCallers c.slot = s.otherCallers c.slot := by
    rw [hlocal.callers, ← hy, State.otherCallers, handDown_callers, release_lc]
    rfl
  have halike : ReportsAlike s x := by
    have hyru : y.ru = s.ru := by rw [← hy, handDown_ru, release_frame]
    refine ⟨?_, by rw [hlocal.fp, hyfp], by rw [hlocal.clock, hyret, hreleased.clock]⟩
    rw [← hx]
    exact hyru
  have hend := hlocal.trans (localTo_failBringup x c.slot .calendarFull)
  obtain ⟨hflink, hfvol, hfcallers, hfexchange⟩ := failBringup_left hk (.inl rfl) x
  exact {
    accounts := by rw [hend.accounts, hyret, hreleased.accounts]
    plans := by rw [hend.plans, hyret, hreleased.plans]
    tp := by
      rw [hend.frame]
      exact hytp
    counters := by
      rw [hend.frame]
      exact hycounters
    others := fun j hj => by
      rw [hend.link j hj, hend.linkVol j hj, ← hy, link_handDown, linkVol_handDown]
      exact ⟨hreleased.link j hj, hreleased.linkVol j hj⟩
    fp := hend.fp.trans hyfp
    exchange := fun hq => by
      rw [hfexchange, ← hx]
      change y.lc.exchange = _
      rw [← hy, handDown_keyed ((congrArg FieldPort.quieted hreleased.fp).trans hq)]
    callers := hfcallers.trans hxcallers
    link := by
      rw [hflink, hxlink]
      rfl
    linkVol := by rw [hfvol, hxvol]
    calendar := by
      rw [failBringup_calendar (by rw [hxlink]), ← hx]
      change y.ret.calendar = _
      rw [hyret]
    ru := by
      have hadvisory : x.failAdvisory c.slot .calendarFull = ⟨0, c.slot, .link ((s.link c.slot).kitId.getD 0)
          (.bringupFailed .calendarFull ((s.linkVol c.slot).progress.getD .waiting) (s.linkVol c.slot).mismatches)⟩ := by
        rw [State.failAdvisory, hxlink, hxvol]
      rw [failBringup_ru, hadvisory, hand_eq halike] }

/-- Settles O52: the search on the released calendar, then the OFFER of what it found or the failure CALENDAR_FULL. -/
theorem freeCellOffersPlacement : Obligations.FreeCellOffersPlacement := by
  intro s cut n c p1 a plan hpower hbusy hreception hwindow hnext hstatus mode hmode hcell hc hlow hhigh l v hpage hprogress ha hplan fp
    preferred start released served handed others
  have hk : 1 ≤ c.slot ∧ c.slot ≤ 384 := ⟨hlow, hhigh⟩
  have hexec := dataSlot_eq hpower hbusy hreception hwindow hnext hmode cut
  change exec (.slotStart cut) s = .next (State.useDataSlot { s with fp := fp } n) at hexec
  have hfind : (({ s with fp := fp } : State).lc.callers.find? fun c =>
      !c.mark && (State.linkVol { s with fp := fp } c.slot).progress != some .confirmed) = some c := hc
  rw [useDataSlot_serves (s := { s with fp := fp }) hstatus hmode hcell, State.serveFreeCell] at hexec
  simp only [hfind] at hexec
  rw [serveCaller_offer (s := { s with fp := fp }) hpage hprogress] at hexec
  generalize hm : State.markCaller { s with fp := fp } c.slot = m at hexec
  have hmret : m.ret = s.ret := by rw [← hm]; rfl
  have hmfp : m.fp = fp := by rw [← hm]; rfl
  have hmru : m.ru = s.ru := by rw [← hm]; rfl
  have hmtp : m.tp = s.tp := by rw [← hm]; rfl
  have hmcounters : m.counters = s.counters := by rw [← hm]; rfl
  have hmcallers : m.lc.callers = served := by rw [← hm]; rfl
  have hmlink (j : Nat) : m.link j = s.link j := by rw [← hm]; rfl
  have hmvol (j : Nat) : m.linkVol j = s.linkVol j := by rw [← hm]; rfl
  have hmexchange : m.lc.exchange = s.lc.exchange := by rw [← hm]; rfl
  have halike : ReportsAlike { s with fp := fp } m := ⟨hmru, by rw [hmfp], by rw [hmret]⟩
  have hsearch : (m.release c.slot).findPlacement (m.offerStart (m.linkVol c.slot) p1) p1.figures.maxExponent =
      released.findPlacement start p1.figures.maxExponent := by
    have hstart : m.offerStart (m.linkVol c.slot) p1 = start := by
      simp only [State.offerStart, hmvol, hmret, startExponent]
      rfl
    rw [hstart]
    exact findPlacement_congr (by rw [release_ret_congr hmret]) _ _
  have hothers {t : State} (hlocal : LocalTo c.slot m t) : t.ret.accounts = s.ret.accounts ∧ t.ret.plans = s.ret.plans ∧ t.tp = s.tp ∧
      t.counters = s.counters ∧ ∀ j, j ≠ c.slot → t.link j = s.link j ∧ t.linkVol j = s.linkVol j := by
    refine ⟨by rw [hlocal.accounts, hmret], by rw [hlocal.plans, hmret], ?_, ?_, fun j hj =>
      ⟨(hlocal.link j hj).trans (hmlink j), (hlocal.linkVol j hj).trans (hmvol j)⟩⟩
    · rw [hlocal.frame]
      exact hmtp
    · rw [hlocal.frame]
      exact hmcounters
  refine ⟨fun q hq => ?_, fun hnone => ?_⟩
  · intro ended
    rw [sendOffer_some (hsearch.trans hq)] at hexec
    have hlocal := localTo_allocated m c.slot q
    obtain ⟨haccounts, hplans, htp, hcounters, hslots⟩ := hothers hlocal
    have hdose : (m.allocated c.slot q).offerDose c.slot = plan.dose := by
      have haccount : (m.allocated c.slot q).account c.slot = some a := (account_congr haccounts _).trans ha
      have hplanOf : (m.allocated c.slot q).planOf a = plan := planOf_eq ((plan_congr hplans _).trans hplan)
      simp only [State.offerDose, haccount, hplanOf]
    have hfp : (m.allocated c.slot q).fp = fp := hlocal.fp.trans hmfp
    have hquieted : (m.allocated c.slot q).fp.quieted = s.fp.quieted := by rw [hfp]
    rw [hdose, hfp] at hexec
    refine ⟨_, hexec, ?_, ?_, fun hq => ?_, ?_, ?_, ?_, fun i hi => ?_, fun i hi => ?_, ?_⟩
    · refine ⟨by rw [handDown_ret, haccounts], by rw [handDown_ret, hplans], ?_, ?_, fun j hj => ?_⟩
      · rw [handDown_frame]
        exact htp
      · rw [handDown_frame]
        exact hcounters
      · rw [link_handDown, linkVol_handDown]
        exact hslots j hj
    · rw [handDown_frame, hfp]
      rfl
    · rw [handDown_keyed (hquieted.trans hq)]
    · rw [handDown_callers, allocated_callers, hmcallers]
    · rw [link_handDown, link_allocated hk, hmlink]
    · rw [linkVol_handDown, linkVol_allocated hk, hmvol, hmlink]
    · have hfree : released.ret.calendar[i]? = some none := findPlacement_free hq i hi
      have hin : i < 1536 := by
        by_contra hout
        rw [Vector.getElem?_eq_none (Nat.not_lt.1 hout)] at hfree
        cases hfree
      rw [handDown_ret, allocated_calendar, if_pos ⟨hi, hin⟩]
    · rw [handDown_ret, allocated_calendar, if_neg fun h => hi h.1, release_ret_congr hmret]
    · have hrecords : m.allocationRecords c.slot = ended := by
        have hprobe : m.probeResult c.slot = s.probeResult c.slot :=
          probeResult_congr (s := { s with fp := fp }) (by rw [hmret]) hmfp hmexchange (by rw [hmvol]; rfl)
        have hresult : (s.probeResult c.slot).toList = match v.probe with
            | some p => [⟨p.tag, c.slot, .probeResult a.kitId p .noEcho (s.droppedCycle c.slot)⟩]
            | none => [] := by
          simp only [State.probeResult, ha, Option.map_some, Option.getD_some]
          change (v.probe.map _).toList = _
          cases v.probe <;> rfl
        simp only [State.allocationRecords, hmlink, hprobe, hresult, ended, l, v]
        generalize (s.link c.slot).state = st
        generalize (s.linkVol c.slot).probe = held
        cases st <;> cases held <;> rfl
      rw [handDown_ru, allocated_ru hk, hrecords, (halike.handAll _).ru]
  · have hfailed := offerFailed_sendOffer hk (hsearch.trans hnone)
    refine ⟨_, hexec, ⟨?_, ?_, hfailed.tp.trans hmtp, hfailed.counters.trans hmcounters, fun j hj => ?_⟩, ?_,
      fun hq => hfailed.exchange (by rw [hmfp]; exact hq), ?_, ?_, ?_, ?_, ?_⟩
    · rw [hfailed.accounts, hmret]
    · rw [hfailed.plans, hmret]
    · rw [← hmlink, ← hmvol]
      exact hfailed.others j hj
    · have hdown := hfailed.fp
      rw [hmfp] at hdown
      exact hdown
    · rw [hfailed.callers, State.otherCallers, hmcallers]
    · rw [hfailed.link, hmlink]
    · rw [hfailed.linkVol, hmvol]
      rfl
    · rw [hfailed.calendar, release_ret_congr hmret]
    · rw [hfailed.ru, hmlink, hmvol, hand_eq halike]

end Sys2Proof.Machine
end

section
/-!
Wakes judged (R128 to R130, R164): what each step does to the account and the link records of the one slot it is about, and the
records it hands over.
-/

namespace Sys2Proof.Machine

variable {s t : State} {k : Nat} {a b : Option Account} {l m : LinkRetained} {v w : LinkVolatile} {rs qs : List Report}

/-! ### The records of one slot written -/

theorem setIfInBounds_own {α : Type} {n : Nat} {xs : Vector α n} {i : Nat} {x : α} (h : xs[i]? = some x) : xs.setIfInBounds i x = xs := by
  apply Vector.ext
  intro j hj
  rw [Vector.getElem_setIfInBounds]
  split
  · next hij =>
    subst hij
    rw [Vector.getElem?_eq_getElem hj] at h
    exact (Option.some.inj h).symm
  · rfl

theorem setAccount_own (hk : 1 ≤ k ∧ k ≤ 384) (s : State) : s.setAccount k (s.account k) = s := by
  have hat : s.ret.accounts[slotPos k]? = some (s.account k) := by
    rw [State.account, Vector.getElem?_eq_getElem (slotPos_lt.2 hk)]
    rfl
  change { s with ret := { s.ret with accounts := _ } } = s
  rw [setIfInBounds_own hat]

theorem setLink_own (hk : 1 ≤ k ∧ k ≤ 384) (s : State) : s.setLink k (s.link k) = s := by
  have hat : s.ret.links[slotPos k]? = some (s.link k) := by
    rw [State.link, Vector.getElem?_eq_getElem (slotPos_lt.2 hk)]
    rfl
  change { s with ret := { s.ret with links := _ } } = s
  rw [setIfInBounds_own hat]

theorem setLinkVol_own (hk : 1 ≤ k ∧ k ≤ 384) (s : State) : s.setLinkVol k (s.linkVol k) = s := by
  have hat : s.lc.links[slotPos k]? = some (s.linkVol k) := by
    rw [State.linkVol, Vector.getElem?_eq_getElem (slotPos_lt.2 hk)]
    rfl
  change { s with lc := { s.lc with links := _ } } = s
  rw [setIfInBounds_own hat]

theorem setIfInBounds_twice {α : Type} {n : Nat} (xs : Vector α n) (i : Nat) (x y : α) :
    (xs.setIfInBounds i x).setIfInBounds i y = xs.setIfInBounds i y := by
  apply Vector.ext
  intro j hj
  simp only [Vector.getElem_setIfInBounds]
  split <;> rfl

/-- The account and both link records of a slot written, and records handed over after that. -/
def State.settled (s : State) (k : Nat) (a : Option Account) (l : LinkRetained) (v : LinkVolatile) (rs : List Report) : State :=
  (((s.setAccount k a).setLink k l).setLinkVol k v).handAll rs

theorem settled_eq (s : State) (k : Nat) (a : Option Account) (l : LinkRetained) (v : LinkVolatile) (rs : List Report) :
    s.settled k a l v rs = { s with
      ret := { s.ret with
        accounts := s.ret.accounts.setIfInBounds (slotPos k) a, links := s.ret.links.setIfInBounds (slotPos k) l }
      lc := { s.lc with links := s.lc.links.setIfInBounds (slotPos k) v }
      ru := (s.handAll rs).ru } :=
  handAll_eq (s := s) (t := ((s.setAccount k a).setLink k l).setLinkVol k v) ⟨rfl, rfl, rfl⟩ rs

theorem settled_own (hk : 1 ≤ k ∧ k ≤ 384) (s : State) : s.settled k (s.account k) (s.link k) (s.linkVol k) [] = s := by
  change ((s.setAccount k (s.account k)).setLink k (s.link k)).setLinkVol k (s.linkVol k) = s
  rw [setAccount_own hk, setLink_own hk, setLinkVol_own hk]

/-- The records of a slot written with its account left as it stands. -/
theorem settled_links (hk : 1 ≤ k ∧ k ≤ 384) (s : State) (l : LinkRetained) (v : LinkVolatile) (rs : List Report) :
    s.settled k (s.account k) l v rs = ((s.setLink k l).setLinkVol k v).handAll rs := by
  rw [State.settled, setAccount_own hk]

theorem settled_fp : (s.settled k a l v rs).fp = s.fp := by rw [settled_eq]

theorem settled_plan (n : Nat) : (s.settled k a l v rs).plan n = s.plan n := plan_congr (by rw [settled_eq]) n

theorem settled_caller (j : Nat) : (s.settled k a l v rs).caller j = s.caller j := by
  rw [settled_eq]
  rfl

theorem settled_ru : (s.settled k a l v rs).ru = (s.handAll rs).ru := by rw [settled_eq]

theorem settled_account (hk : 1 ≤ k ∧ k ≤ 384) : (s.settled k a l v rs).account k = a := by
  have h : (s.settled k a l v rs).account k = (s.setAccount k a).account k := account_congr (by rw [settled_eq]; rfl) k
  rw [h, account_setAccount, if_pos ⟨rfl, hk⟩]

theorem settled_link (hk : 1 ≤ k ∧ k ≤ 384) : (s.settled k a l v rs).link k = l := by
  have h : (s.settled k a l v rs).link k = (s.setLink k l).link k := link_congr (by rw [settled_eq]; rfl) k
  rw [h, link_setLink, if_pos ⟨rfl, hk⟩]

theorem settled_linkVol (hk : 1 ≤ k ∧ k ≤ 384) : (s.settled k a l v rs).linkVol k = v := by
  have h : (s.settled k a l v rs).linkVol k = (s.setLinkVol k v).linkVol k := linkVol_congr (by rw [settled_eq]; rfl) k
  rw [h, linkVol_setLinkVol, if_pos ⟨rfl, hk⟩]

theorem settled_others {j : Nat} (hj : j ≠ k) : (s.settled k a l v rs).account j = s.account j ∧
    (s.settled k a l v rs).link j = s.link j ∧ (s.settled k a l v rs).linkVol j = s.linkVol j := by
  have haccount : (s.settled k a l v rs).account j = (s.setAccount k a).account j := account_congr (by rw [settled_eq]; rfl) j
  have hlink : (s.settled k a l v rs).link j = (s.setLink k l).link j := link_congr (by rw [settled_eq]; rfl) j
  have hvol : (s.settled k a l v rs).linkVol j = (s.setLinkVol k v).linkVol j := linkVol_congr (by rw [settled_eq]; rfl) j
  rw [haccount, hlink, hvol, account_setAccount, link_setLink, linkVol_setLinkVol]
  exact ⟨if_neg fun h => hj h.1, if_neg fun h => hj h.1, if_neg fun h => hj h.1⟩

/-! ### Steps on the written state -/

theorem setAccount_settled : (s.settled k a l v rs).setAccount k b = s.settled k b l v rs := by
  rw [settled_eq, settled_eq]
  simp only [State.setAccount, setIfInBounds_twice]

theorem setLink_settled : (s.settled k a l v rs).setLink k m = s.settled k a m v rs := by
  rw [settled_eq, settled_eq]
  simp only [State.setLink, setIfInBounds_twice]

theorem setLinkVol_settled : (s.settled k a l v rs).setLinkVol k w = s.settled k a l w rs := by
  rw [settled_eq, settled_eq]
  simp only [State.setLinkVol, setIfInBounds_twice]

theorem mapLink_settled (hk : 1 ≤ k ∧ k ≤ 384) (f : LinkRetained → LinkRetained) :
    (s.settled k a l v rs).mapLink k f = s.settled k a (f l) v rs := by
  rw [State.mapLink, settled_link hk, setLink_settled]

theorem mapLinkVol_settled (hk : 1 ≤ k ∧ k ≤ 384) (f : LinkVolatile → LinkVolatile) :
    (s.settled k a l v rs).mapLinkVol k f = s.settled k a l (f v) rs := by
  rw [State.mapLinkVol, settled_linkVol hk, setLinkVol_settled]

theorem handAll_settled : (s.settled k a l v rs).handAll qs = s.settled k a l v (rs ++ qs) := by
  rw [State.settled, ← handAll_append]
  rfl

theorem hand_settled (r : Report) : (s.settled k a l v rs).hand r = s.settled k a l v (rs ++ [r]) := handAll_settled (qs := [r])

/-! ### A HIT (R129) -/

/-- The retained link record after a HIT's counts: a SILENT link resumes (R129). -/
def LinkRetained.hit (l : LinkRetained) : LinkRetained :=
  { l with state := if l.state = .silent then .bound else l.state, history := appendWake l.history .hit, misses := 0 }

/-- The advisory of a SILENT link that resumes (R129). -/
def resumedRecords (k kitId : Nat) (l : LinkRetained) : List Report :=
  if l.state = .silent then [⟨0, k, .link kitId (.resumed l.misses)⟩] else []

theorem addCorrected_settled (hk : 1 ≤ k ∧ k ≤ 384) (n : Nat) : (s.settled k a l v rs).addCorrected k n =
    s.settled k a l { v with correctedBlocks := min (v.correctedBlocks + n) 65535 } rs := mapLinkVol_settled hk _

theorem hitCounts_settled (hk : 1 ≤ k ∧ k ≤ 384) (kitId : Nat) : (s.settled k a l v rs).hitCounts k kitId =
    s.settled k a l.hit { v with goodFrames := min (v.goodFrames + 1) 65535 } (rs ++ resumedRecords k kitId l) := by
  by_cases hsilent : l.state = .silent
  · simp only [State.hitCounts, settled_link hk, mapLink_settled hk, mapLinkVol_settled hk, hand_settled, LinkRetained.hit,
      resumedRecords, if_pos hsilent, satInc]
  · simp only [State.hitCounts, settled_link hk, mapLink_settled hk, mapLinkVol_settled hk, LinkRetained.hit,
      resumedRecords, if_neg hsilent, satInc, List.append_nil]

theorem deliver_taken (hk : 1 ≤ k ∧ k ≤ 384) {x : Account} {p : Plan} (hplan : s.plan x.plan = some p) (rep : KitReport)
    (carried : InstructionSet) : (s.settled k (some x) l v rs).deliver k x.kitId rep carried =
      (s.settled k (some (x.reconcile p k rep carried).1) l v (rs ++ (x.reconcile p k rep carried).2), true) := by
  have hplanOf : (s.settled k (some x) l v rs).planOf x = p := planOf_eq ((settled_plan _).trans hplan)
  simp only [State.deliver, settled_account hk, if_true, hplanOf, setAccount_settled, handAll_settled]

theorem deliver_refused (hk : 1 ≤ k ∧ k ≤ 384) {kitId : Nat} (h : ∀ x, a = some x → x.kitId ≠ kitId) (rep : KitReport)
    (carried : InstructionSet) : (s.settled k a l v rs).deliver k kitId rep carried = (s.settled k a l v rs, false) := by
  cases a with
  | none => simp only [State.deliver, settled_account hk]
  | some x => simp only [State.deliver, settled_account hk, if_neg (h x rfl)]

/-- The BOUND advisory of a bind (R148). -/
def State.boundRecord (s : State) (k kitId : Nat) (l : LinkRetained) : Report :=
  ⟨0, k, .link kitId (.bound (l.placement.getD default) (match s.caller k with
    | some c => (s.fp.cycle + 65536 - c.startCycle.getD s.fp.cycle) % 65536
    | none => 0))⟩

theorem bindLink_settled (hk : 1 ≤ k ∧ k ≤ 384) (kitId : Nat) : (s.settled k a l v rs).bindLink k kitId =
    (s.settled k (a.map Account.bind) { l with state := .bound } v (rs ++ [s.boundRecord k kitId l])).leaveQueue k := by
  simp only [State.bindLink, settled_caller, settled_fp, mapLink_settled hk, settled_account hk, setAccount_settled, settled_link hk,
    hand_settled]
  rfl

/-- A probe wake that ends with its result (R164). -/
theorem endProbe_settled (hk : 1 ≤ k ∧ k ≤ 384) (kitId : Nat) (p : Probe) (r : Probe → ProbeOutcome) :
    (s.settled k a l v rs).endProbe k kitId (some p) r =
      s.settled k a l { v with probe := none } (rs ++ [⟨p.tag, k, .probeResult kitId p (r p) s.fp.cycle⟩]) := by
  simp only [State.endProbe, mapLinkVol_settled hk, hand_settled, settled_fp]

/-! ### A MISS (R130) -/

/-- The retained link record after a MISS, with the silence test of a BOUND link (R130). -/
def LinkRetained.miss (l : LinkRetained) (limit : Nat) : LinkRetained :=
  { l with
    state := if l.state = .bound ∧ limit ≤ min (l.misses + 1) 255 then .silent else l.state
    history := appendWake l.history .miss, misses := min (l.misses + 1) 255 }

/-- The advisory of a BOUND link that falls SILENT (R130). -/
def silentRecords (k kitId : Nat) (l : LinkRetained) (limit : Nat) : List Report :=
  if l.state = .bound ∧ limit ≤ min (l.misses + 1) 255 then [⟨0, k, .link kitId (.silent (min (l.misses + 1) 255))⟩] else []

/-- The volatile link record after a MISS (R130). -/
def LinkVolatile.miss (v : LinkVolatile) (isPoll : Bool) : LinkVolatile :=
  { v with missedWakes := min (v.missedWakes + 1) 65535, reportTaken := v.reportTaken && !isPoll }

theorem miss_settled (hk : 1 ≤ k ∧ k ≤ 384) (kitId : Nat) (isPoll : Bool) : (s.settled k a l v rs).miss k kitId isPoll =
    s.settled k a (l.miss s.ret.config.silenceLimit) (v.miss isPoll) (rs ++ silentRecords k kitId l s.ret.config.silenceLimit) := by
  have hconfig {l : LinkRetained} {v : LinkVolatile} : (s.settled k a l v rs).ret.config = s.ret.config := by rw [settled_eq]
  by_cases hsilent : l.state = .bound ∧ s.ret.config.silenceLimit ≤ min (l.misses + 1) 255
  · simp only [State.miss, State.missCounts, State.silenceTest, mapLink_settled hk, mapLinkVol_settled hk, settled_link hk, hconfig,
      satInc, if_pos hsilent, hand_settled, LinkRetained.miss, silentRecords, LinkVolatile.miss]
  · simp only [State.miss, State.missCounts, State.silenceTest, mapLink_settled hk, mapLinkVol_settled hk, settled_link hk, hconfig,
      satInc, if_neg hsilent, LinkRetained.miss, silentRecords, LinkVolatile.miss, List.append_nil]

theorem countFailed_settled (hk : 1 ≤ k ∧ k ≤ 384) : (s.settled k a l v rs).countFailed k =
    s.settled k a l { v with failedFrames := min (v.failedFrames + 1) 65535 } rs := mapLinkVol_settled hk _

/-! ### The exchange of a slot taken (R116, R128) -/

/-- The state in which the outcome of the slot's exchange is judged: the exchange record has ended. -/
def State.exchangeTaken (s : State) (fp : FieldPort) (counters : NodeCounters) : State :=
  { s with fp := fp, counters := counters, lc := { s.lc with exchange := none } }

/-- The Field Port with its reception ended and a record made (R115). -/
def FieldPort.recorded (fp : FieldPort) : FieldPort := { fp with reception := none, recordMade := true }

theorem endFrame_first {r : FieldReception} {n : Nat} (hplace : s.fp.place = .data n) (hreception : s.fp.reception = some r)
    (hmade : s.fp.recordMade = false) (blocks : List Block) : s.endFrame blocks =
      State.exchangeOutcome { s with fp := s.fp.recorded, counters := (s.countShort r blocks).counters }
        (some (r.arrival blocks true)) := by
  rw [endFrame_data hplace hreception, countShort_frame, hmade]
  rfl

theorem fieldFrameEnd_eq (s : State) (blocks : List Block) : exec (.fieldFrameEnd blocks) s = .next (s.endFrame blocks) := rfl

theorem carrierLossEnd_eq (s : State) (blocks : List Block) : exec (.carrierLossEnd blocks) s = .next (s.endFrame blocks) := rfl

/-- Whether an exchange is a wake, which is judged (R128). -/
def ExchangeKind.isWake : ExchangeKind → Bool
  | .poll _ | .probe _ => true
  | .invite _ | .offer | .decline => false

/-- A wake's outcome is judged (R128). -/
theorem exchangeOutcome_wake {kind : ExchangeKind} {slot kitId : Nat} (h : s.lc.exchange = some ⟨kind, slot, kitId⟩)
    (hwake : kind.isWake = true) (fp : FieldPort) (counters : NodeCounters) (arrival : Option Arrival) :
    State.exchangeOutcome { s with fp := fp, counters := counters } arrival =
      (s.exchangeTaken fp counters).judgeWake slot kitId kind arrival := by
  cases kind with
  | poll c =>
    simp only [State.exchangeOutcome, h]
    rfl
  | probe p =>
    simp only [State.exchangeOutcome, h]
    rfl
  | invite page => cases hwake
  | offer => cases hwake
  | decline => cases hwake

/-- The exchange of a bring-up without a reply is lost without effect (R141). -/
theorem exchangeOutcome_lost {kind : ExchangeKind} {slot kitId : Nat} (h : s.lc.exchange = some ⟨kind, slot, kitId⟩)
    (hwake : kind.isWake = false) (fp : FieldPort) (counters : NodeCounters) :
    State.exchangeOutcome { s with fp := fp, counters := counters } none = s.exchangeTaken fp counters := by
  cases kind with
  | poll c => cases hwake
  | probe p => cases hwake
  | invite page =>
    simp only [State.exchangeOutcome, h]
    rfl
  | offer =>
    simp only [State.exchangeOutcome, h]
    rfl
  | decline =>
    simp only [State.exchangeOutcome, h]
    rfl

/-- The reply to an INVITE or an OFFER reaches the bring-up (R141). -/
theorem exchangeOutcome_bringup {kind : ExchangeKind} {slot kitId : Nat} (h : s.lc.exchange = some ⟨kind, slot, kitId⟩)
    (hwake : kind.isWake = false) (hdecline : kind ≠ .decline) (fp : FieldPort) (counters : NodeCounters) (r : Arrival) :
    State.exchangeOutcome { s with fp := fp, counters := counters } (some r) =
      (s.exchangeTaken fp counters).bringupReply slot kitId kind r := by
  cases kind with
  | poll c => cases hwake
  | probe p => cases hwake
  | decline => exact absurd rfl hdecline
  | invite page =>
    simp only [State.exchangeOutcome, h]
    rfl
  | offer =>
    simp only [State.exchangeOutcome, h]
    rfl

/-- A DECLINE asks for no reply (R151). -/
theorem exchangeOutcome_decline {slot kitId : Nat} (h : s.lc.exchange = some ⟨.decline, slot, kitId⟩) (fp : FieldPort)
    (counters : NodeCounters) (arrival : Option Arrival) :
    State.exchangeOutcome { s with fp := fp, counters := counters } arrival = s.exchangeTaken fp counters := by
  cases arrival <;>
  · simp only [State.exchangeOutcome, h]
    rfl

theorem bringupReply_failed {r : Arrival} (h : r.payload = none) (slot kitId : Nat) (kind : ExchangeKind) :
    s.bringupReply slot kitId kind r = s := by
  unfold State.bringupReply
  split
  · next hsome => rw [h] at hsome; cases hsome
  · rfl

end Sys2Proof.Machine
end

section
/-!
Good replies (R129, R142, R148, R164): a HIT, the delivery of its report, the bind, and the result of a probe.
-/

namespace Sys2Proof.Machine

variable {s t : State} {k slot kitId : Nat} {a : Option Account} {l : LinkRetained} {v : LinkVolatile} {rs : List Report}

/-! ### The judging of a good reply -/

/-- The volatile link record after a HIT's counts (R129, R154). -/
def LinkVolatile.counted (v : LinkVolatile) (corrected : Nat) : LinkVolatile :=
  { v with goodFrames := min (v.goodFrames + 1) 65535, correctedBlocks := min (v.correctedBlocks + corrected) 65535 }

/-- What the judging of a wake leaves beside the slot it is about (R115, R128). -/
def State.WakeFrame (s : State) (slot : Nat) (t : State) : Prop :=
  t.fp = s.fp.recorded ∧ t.lc.exchange = none ∧ t.counters = s.counters ∧ t.tp = s.tp ∧ t.ret.calendar = s.ret.calendar ∧
    t.ret.plans = s.ret.plans ∧
    ∀ j, j ≠ slot → t.account j = s.account j ∧ t.link j = s.link j ∧ t.linkVol j = s.linkVol j

theorem wakeFrame_settled : s.WakeFrame slot ((s.exchangeTaken s.fp.recorded s.counters).settled slot a l v rs) := by
  refine ⟨settled_fp, ?_, ?_, ?_, ?_, ?_, fun j hj => settled_others hj⟩
  all_goals
    rw [settled_eq]
    rfl

theorem wakeFrame_leaveQueue (h : s.WakeFrame slot t) : s.WakeFrame slot (t.leaveQueue slot) := by
  obtain ⟨hfp, hexchange, hcounters, htp, hcalendar, hplans, hothers⟩ := h
  have hlocal := localTo_leaveQueue t slot
  refine ⟨hlocal.fp.trans hfp, hexchange, hcounters, htp, hcalendar, hplans, fun j hj => ?_⟩
  obtain ⟨haccount, hlink, hvol⟩ := hothers j hj
  exact ⟨(account_congr hlocal.accounts j).trans haccount, (hlocal.link j hj).trans hlink, (hlocal.linkVol j hj).trans hvol⟩

theorem reportsAlike_exchangeTaken (s : State) (counters : NodeCounters) :
    ReportsAlike s (s.exchangeTaken s.fp.recorded counters) := ⟨rfl, rfl, rfl⟩

theorem taken_ru : ((s.exchangeTaken s.fp.recorded s.counters).settled slot a l v rs).ru = (s.handAll rs).ru :=
  settled_ru.trans ((reportsAlike_exchangeTaken s s.counters).handAll rs).ru

/-- A record of the polled kit's reply with good payload is judged a HIT (R128, R129). -/
theorem judgeWake_hit (hk : 1 ≤ slot ∧ slot ≤ 384) {kind : ExchangeKind} {r : Arrival} {payload : List Byte}
    (hkind : r.kind = if kind.isPoll then .report else .echo) (haddress : r.address = slot) (hpayload : r.payload = some payload)
    (s : State) : s.judgeWake slot kitId kind (some r) =
      (s.settled slot (s.account slot) (s.link slot)
        { s.linkVol slot with correctedBlocks := min ((s.linkVol slot).correctedBlocks + r.corrected) 65535 } []).judgeHit
        slot kitId kind r payload := by
  have hattributed : r.attributed slot kind.isPoll = true := by
    simp only [Arrival.attributed, hkind, haddress, beq_self_eq_true, Bool.and_self]
  conv => lhs; rw [← settled_own hk s]
  simp only [State.judgeWake, hattributed, hpayload, if_true, addCorrected_settled hk]

/-- The first record of a wake's window reaches the judging (R116, R128). -/
theorem fieldFrameEnd_wake {r : FieldReception} {n : Nat} {kind : ExchangeKind} (hplace : s.fp.place = .data n)
    (hreception : s.fp.reception = some r) (hmade : s.fp.recordMade = false) {blocks : List Block}
    (hwhole : r.blockCount ≤ blocks.length) (hexchange : s.lc.exchange = some ⟨kind, slot, kitId⟩) (hwake : kind.isWake = true) :
    exec (.fieldFrameEnd blocks) s =
      .next ((s.exchangeTaken s.fp.recorded s.counters).judgeWake slot kitId kind (some (r.arrival blocks true))) := by
  rw [fieldFrameEnd_eq, endFrame_first hplace hreception hmade, countShort_of_whole hwhole,
    exchangeOutcome_wake hexchange hwake]

/-- A good reply of the woken kit, before the third step of its HIT (R129). -/
theorem fieldFrameEnd_hit {r : FieldReception} {n : Nat} {kind : ExchangeKind} {payload : List Byte} {blocks : List Block}
    (hplace : s.fp.place = .data n) (hreception : s.fp.reception = some r) (hmade : s.fp.recordMade = false)
    (hwhole : r.blockCount ≤ blocks.length) (hk : 1 ≤ slot ∧ slot ≤ 384) (haddress : r.address = slot)
    (hpayload : (r.arrival blocks true).payload = some payload) (hexchange : s.lc.exchange = some ⟨kind, slot, kitId⟩)
    (hwake : kind.isWake = true) (hkind : r.kind = if kind.isPoll then .report else .echo) :
    let x := (s.exchangeTaken s.fp.recorded s.counters).settled slot (s.account slot) (s.link slot).hit
      ((s.linkVol slot).counted (r.arrival blocks true).corrected) (resumedRecords slot kitId (s.link slot))
    exec (.fieldFrameEnd blocks) s = .next (match kind with
      | .poll carried => x.hitReport slot kitId carried payload
      | .probe p => x.endProbe slot kitId p fun p => probeOutcome p payload (echoCount r.flags) (r.arrival blocks true).corrected
      | .invite _ | .offer | .decline => x) := by
  intro x
  rw [fieldFrameEnd_wake hplace hreception hmade hwhole hexchange hwake,
    judgeWake_hit (r := r.arrival blocks true) hk hkind haddress hpayload]
  cases kind with
  | poll carried =>
    simp only [State.judgeHit, hitCounts_settled hk, List.nil_append]
    rfl
  | probe p =>
    simp only [State.judgeHit, hitCounts_settled hk, List.nil_append]
    rfl
  | invite page => cases hwake
  | offer => cases hwake
  | decline => cases hwake

/-! ### The report of a POLL wake (R129, R142, R148) -/

theorem hitReport_taken (hk : 1 ≤ slot ∧ slot ≤ 384) {x : Account} {p : Plan} (hplan : s.plan x.plan = some p)
    (hl : l.state ≠ .bringup .confirmed) (carried : InstructionSet) (payload : List Byte) :
    let rep := KitReport.read payload
    (s.settled slot (some x) l v rs).hitReport slot x.kitId carried payload = s.settled slot (some (x.reconcile p slot rep carried).1) l
      { v with reportTaken := true, page1 := v.page1.map fun q => { q with overtaken := true } }
      (rs ++ (x.reconcile p slot rep carried).2) := by
  have hconfirmed : (l.state == .bringup .confirmed) = false := beq_eq_false_iff_ne.2 hl
  simp only [State.hitReport, settled_link hk, hconfirmed, deliver_taken hk hplan, mapLinkVol_settled hk, if_true, Bool.false_eq_true,
    if_false]

theorem hitReport_bound (hk : 1 ≤ slot ∧ slot ≤ 384) {x : Account} {p : Plan} (hplan : s.plan x.plan = some p)
    (hl : l.state = .bringup .confirmed) (carried : InstructionSet) (payload : List Byte) :
    let rep := KitReport.read payload
    (s.settled slot (some x) l v rs).hitReport slot x.kitId carried payload =
      (s.settled slot (some (x.reconcile p slot rep carried).1.bind) { l with state := .bound }
        { v with reportTaken := true, page1 := v.page1.map fun q => { q with overtaken := true } }
        (rs ++ (x.reconcile p slot rep carried).2 ++ [s.boundRecord slot x.kitId l])).leaveQueue slot := by
  have hconfirmed : (l.state == .bringup .confirmed) = true := by rw [hl]; rfl
  simp only [State.hitReport, settled_link hk, hconfirmed, deliver_taken hk hplan, mapLinkVol_settled hk, if_true,
    bindLink_settled hk, Option.map_some]

theorem hitReport_refused (hk : 1 ≤ slot ∧ slot ≤ 384) (h : ∀ x, a = some x → x.kitId ≠ kitId)
    (hl : l.state ≠ .bringup .confirmed) (carried : InstructionSet) (payload : List Byte) :
    (s.settled slot a l v rs).hitReport slot kitId carried payload = s.settled slot a l { v with reportTaken := false } rs := by
  have hconfirmed : (l.state == .bringup .confirmed) = false := beq_eq_false_iff_ne.2 hl
  simp only [State.hitReport, settled_link hk, hconfirmed, deliver_refused hk h, mapLinkVol_settled hk, Bool.false_eq_true, if_false]

theorem hit_state_ne_confirmed (h : l.state ≠ .bringup .confirmed) : l.hit.state ≠ .bringup .confirmed := by
  by_cases hsilent : l.state = .silent
  · simp [LinkRetained.hit, hsilent]
  · simpa [LinkRetained.hit, hsilent] using h

/-! ### The probe's result (R164) -/

theorem patternDifference_self (bytes : List Byte) : patternDifference bytes bytes = (0, 0) := by
  simp [patternDifference]

theorem probeOutcome_pattern (p : Probe) (kit node : Nat) : probeOutcome p (probePattern p.seed) kit node =
    if kit = p.forced then .pass kit node else .decodeMismatch kit node := by
  simp only [probeOutcome, patternDifference_self, if_true]

theorem probePattern_length (seed : Nat) : (probePattern seed).length = 32 := by
  simp [probePattern]

/-- The places where two byte lists differ, below a length. -/
def differences (echo pattern : List Byte) : List Nat :=
  (List.range pattern.length).filter fun i => echo.getD i 0 != pattern.getD i 0

theorem differences_ne_nil {echo pattern : List Byte} (hlength : echo.length = pattern.length) (hne : echo ≠ pattern) :
    differences echo pattern ≠ [] := by
  intro hnil
  refine hne (List.ext_getElem hlength fun i hi hj => ?_)
  have hsame := List.filter_eq_nil_iff.1 hnil i (List.mem_range.2 hj)
  simpa [List.getD_eq_getElem?_getD, hi, hj] using hsame

theorem differences_head {echo pattern : List Byte} (h : differences echo pattern ≠ []) :
    let i := (differences echo pattern).headD 0
    i < pattern.length ∧ echo.getD i 0 ≠ pattern.getD i 0 ∧ ∀ j < i, echo.getD j 0 = pattern.getD j 0 := by
  obtain ⟨i, rest, hi⟩ := List.exists_cons_of_ne_nil h
  have hfind : (List.range pattern.length).find? (fun i => echo.getD i 0 != pattern.getD i 0) = some i := by
    rw [← List.head?_filter]
    exact (congrArg List.head? hi).trans rfl
  obtain ⟨hdiff, hmem, hbefore⟩ := List.find?_range_eq_some.1 hfind
  rw [hi]
  exact ⟨List.mem_range.1 hmem, by simpa using hdiff, fun j hj => by simpa using hbefore j hj⟩

/-- The result for an echo that differs from the pattern (R164). -/
theorem probeOutcome_differs {p : Probe} {echo : List Byte} (hlength : echo.length = 32) (hne : echo ≠ probePattern p.seed)
    (kit node : Nat) : probeOutcome p echo kit node = .patternMismatch kit node (differences echo (probePattern p.seed)).length
      ((differences echo (probePattern p.seed)).headD 0) := by
  have hsome := differences_ne_nil (hlength.trans (probePattern_length p.seed).symm) hne
  have hcount : (differences echo (probePattern p.seed)).length ≠ 0 := fun h => hsome (List.length_eq_zero_iff.1 h)
  simp only [probeOutcome, patternDifference]
  exact if_neg hcount

/-! ### The obligation -/

/-- The bind of an account as R5 states it. -/
theorem bind_eq (b : Account) : b.bind = match b.state with
    | .loaded =>
      if 0 < b.balance ∨ 0 < b.allowance ∨ b.pendingGrant.isSome
      then { b with boundOnce := true, state := .active, lockNoticeDue := false }
      else { b with boundOnce := true, state := .locked, lockNoticeDue := true }
    | .active | .locked => { b with boundOnce := true }.creditTest
    | .suspended | .quarantined => { b with boundOnce := true } := by
  cases h : b.state <;> simp only [Account.bind, h] <;> rfl

/-- Settles O56: the record of the woken kit is counted, then delivered or compared with the probe's pattern. -/
theorem goodReplyIsHit : Obligations.GoodReplyIsHit := by
  intro s blocks n slot kitId r payload hplace hreception hmade hwhole haddress hlow hhigh arrival hpayload l v resumed hit counted frame
  have hk : 1 ≤ slot ∧ slot ≤ 384 := ⟨hlow, hhigh⟩
  have hexec {kind : ExchangeKind} := fieldFrameEnd_hit (kind := kind) (kitId := kitId) hplace hreception hmade hwhole hk haddress hpayload
  refine ⟨fun carried a p hexchange hkind ha hkitId hplan => ?_, fun carried hexchange hkind hl hrefused => ?_,
    fun hexchange hkind => ?_, fun p hexchange hkind => ?_⟩
  · intro b rs overtaken
    subst hkitId
    have hpoll := hexec hexchange rfl hkind
    rw [ha] at hpoll
    refine ⟨fun hl => ?_, fun c start hl hc hstart => ?_⟩
    · have htaken := hpoll.trans (congrArg Host.Outcome.next
        (hitReport_taken (s := s.exchangeTaken s.fp.recorded s.counters) hk hplan (hit_state_ne_confirmed hl) carried payload))
      exact ⟨_, htaken, wakeFrame_settled, settled_account hk, settled_link hk, settled_linkVol hk, by rw [settled_eq]; rfl, taken_ru⟩
    · have hstate : (s.link slot).hit.state = .bringup .confirmed := by simp [LinkRetained.hit, hl, l]
      have hbound := hpoll.trans (congrArg Host.Outcome.next
        (hitReport_bound (s := s.exchangeTaken s.fp.recorded s.counters) hk hplan hstate carried payload))
      refine ⟨_, hbound, wakeFrame_leaveQueue wakeFrame_settled, ?_, ?_, ?_, ?_, ?_⟩
      · exact (settled_account hk).trans (congrArg some (bind_eq b))
      · rw [link_leaveQueue hk, settled_link hk]
        rfl
      · rw [linkVol_leaveQueue hk, settled_linkVol hk]
        rfl
      · rw [callers_leaveQueue, settled_eq]
        rfl
      · have hnone : resumedRecords slot a.kitId (s.link slot) = [] := if_neg (by simp [hl, l])
        have hcaller : (s.exchangeTaken s.fp.recorded s.counters).caller slot = some c := hc
        rw [leaveQueue_ru, taken_ru, hnone, List.nil_append, State.boundRecord, hcaller]
        simp only [hstart, Option.getD_some]
        rfl
  · have hpoll := hexec hexchange rfl hkind
    have hkept := hpoll.trans (congrArg Host.Outcome.next
      (hitReport_refused (s := s.exchangeTaken s.fp.recorded s.counters) hk hrefused (hit_state_ne_confirmed hl) carried payload))
    exact ⟨_, hkept, wakeFrame_settled, settled_account hk, settled_link hk, settled_linkVol hk, by rw [settled_eq]; rfl, taken_ru⟩
  · exact ⟨_, hexec hexchange rfl hkind, wakeFrame_settled, settled_account hk, settled_link hk, settled_linkVol hk,
      by rw [settled_eq]; rfl, taken_ru⟩
  · have hprobe := hexec hexchange rfl hkind
    have hended := hprobe.trans (congrArg Host.Outcome.next (endProbe_settled hk kitId p _))
    refine ⟨_, _, hended, wakeFrame_settled, settled_account hk, settled_link hk, settled_linkVol hk, taken_ru, fun hsame hcount => ?_, fun hsame hcount => ?_,
      fun hlength hdiffer => ?_⟩
    · rw [hsame, probeOutcome_pattern]
      exact if_pos hcount
    · rw [hsame, probeOutcome_pattern]
      exact if_neg hcount
    · have hsome := differences_ne_nil (hlength.trans (probePattern_length p.seed).symm) hdiffer
      obtain ⟨hin, hat, hbefore⟩ := differences_head hsome
      rw [probePattern_length] at hin
      refine ⟨_, _, List.length_pos_iff.2 hsome, hin, probeOutcome_differs hlength hdiffer _ _, hat, hbefore, ?_⟩
      rw [differences, probePattern_length]

end Sys2Proof.Machine
end

section
/-!
Missing replies (R104, R115, R116, R130, R164): the MISS of a wake, by whatever way its reply was lost.
-/

namespace Sys2Proof.Machine

variable {s t u : State} {k slot kitId : Nat} {a : Option Account} {l : LinkRetained} {v : LinkVolatile} {rs : List Report}

/-! ### The judging of a MISS (R130, R164) -/

/-- The volatile link record after a wake judged a MISS: counted, and a held probe ended (R130, R164). -/
def ExchangeKind.missed (kind : ExchangeKind) (v : LinkVolatile) : LinkVolatile :=
  match kind with
  | .poll _ => { v with missedWakes := min (v.missedWakes + 1) 65535, reportTaken := false }
  | .probe (some _) => { v with missedWakes := min (v.missedWakes + 1) 65535, probe := none }
  | .probe none | .invite _ | .offer | .decline => { v with missedWakes := min (v.missedWakes + 1) 65535 }

/-- The result of a probe wake judged a MISS (R164). -/
def ExchangeKind.missRecords (kind : ExchangeKind) (slot kitId cycle : Nat) : List Report :=
  match kind with
  | .probe (some p) => [⟨p.tag, slot, .probeResult kitId p .noEcho cycle⟩]
  | .poll _ | .probe none | .invite _ | .offer | .decline => []

theorem judgeMiss_settled (hk : 1 ≤ slot ∧ slot ≤ 384) {kind : ExchangeKind} :
    (s.settled slot a l v rs).judgeMiss slot kitId kind =
      s.settled slot a (l.miss s.ret.config.silenceLimit) (kind.missed v)
        (rs ++ silentRecords slot kitId l s.ret.config.silenceLimit ++ kind.missRecords slot kitId s.fp.cycle) := by
  have hpoll : v.miss true = { v with missedWakes := min (v.missedWakes + 1) 65535, reportTaken := false } := by
    simp [LinkVolatile.miss]
  have hother : v.miss false = { v with missedWakes := min (v.missedWakes + 1) 65535 } := by simp [LinkVolatile.miss]
  rcases kind with c | (_ | p) | page | _ | _
  · simp only [State.judgeMiss, miss_settled hk, ExchangeKind.isPoll, hpoll, ExchangeKind.missed, ExchangeKind.missRecords,
      List.append_nil]
  · simp only [State.judgeMiss, miss_settled hk, State.endProbe, hother, ExchangeKind.missed, ExchangeKind.missRecords,
      List.append_nil]
  · simp only [State.judgeMiss, miss_settled hk, endProbe_settled hk, hother, ExchangeKind.missed, ExchangeKind.missRecords]
  all_goals
    simp only [State.judgeMiss, miss_settled hk, ExchangeKind.isPoll, hother, ExchangeKind.missed, ExchangeKind.missRecords,
      List.append_nil]

/-- The state after a wake judged a MISS whose link record stood at `v` (R130, R164). -/
def State.missedWake (s : State) (slot kitId : Nat) (kind : ExchangeKind) (v : LinkVolatile) : State :=
  ((s.setLink slot ((s.link slot).miss s.ret.config.silenceLimit)).setLinkVol slot (kind.missed v)).handAll
    (silentRecords slot kitId (s.link slot) s.ret.config.silenceLimit ++ kind.missRecords slot kitId s.fp.cycle)

theorem judgeMiss_eq (hk : 1 ≤ slot ∧ slot ≤ 384) (s : State) (kind : ExchangeKind) (v : LinkVolatile) :
    (s.settled slot (s.account slot) (s.link slot) v []).judgeMiss slot kitId kind = s.missedWake slot kitId kind v := by
  rw [judgeMiss_settled hk, settled_links hk]
  rfl

theorem judgeWake_silent (hk : 1 ≤ slot ∧ slot ≤ 384) (s : State) (kind : ExchangeKind) :
    s.judgeWake slot kitId kind none = s.missedWake slot kitId kind (s.linkVol slot) := by
  conv => lhs; rw [← settled_own hk s]
  exact judgeMiss_eq hk s kind _

/-- The kind of record a wake asks for (R128). -/
def ExchangeKind.asked (kind : ExchangeKind) : UpKind := if kind.isPoll then .report else .echo

/-- The volatile link record with a failed payload counted against the kit it came from (R128). -/
def LinkVolatile.failedReply (v : LinkVolatile) (r : Arrival) (slot : Nat) (asked : UpKind) : LinkVolatile :=
  if r.kind = asked ∧ r.address = slot then
    { v with
      failedFrames := min (v.failedFrames + 1) 65535
      correctedBlocks := min (v.correctedBlocks + r.corrected) 65535 }
  else v

/-- A POLL's MISS clears the report-taken flag whatever its record counted (R130). -/
theorem missed_poll (carried : InstructionSet) (v : LinkVolatile) (r : Arrival) (slot : Nat) (asked : UpKind) :
    ExchangeKind.missed (.poll carried) (v.failedReply r slot asked) =
      ExchangeKind.missed (.probe none) (LinkVolatile.failedReply { v with reportTaken := false } r slot asked) := by
  unfold LinkVolatile.failedReply
  split <;> rfl

/-- A PROBE's MISS ends its probe whatever its record counted (R164). -/
theorem missed_probe (p : Probe) (v : LinkVolatile) (r : Arrival) (slot : Nat) (asked : UpKind) :
    ExchangeKind.missed (.probe (some p)) (v.failedReply r slot asked) =
      ExchangeKind.missed (.probe none) (LinkVolatile.failedReply { v with probe := none } r slot asked) := by
  unfold LinkVolatile.failedReply
  split <;> rfl

/-- A record that is not a good reply of the woken kit makes a MISS (R128). -/
theorem judgeWake_lost (hk : 1 ≤ slot ∧ slot ≤ 384) {r : Arrival} {kind : ExchangeKind}
    (hlost : r.payload = none ∨ r.kind ≠ kind.asked ∨ r.address ≠ slot) (s : State) :
    s.judgeWake slot kitId kind (some r) =
      s.missedWake slot kitId kind ((s.linkVol slot).failedReply r slot kind.asked) := by
  have hattributed : r.attributed slot kind.isPoll = true ↔ r.kind = kind.asked ∧ r.address = slot := by
    simp only [Arrival.attributed, ExchangeKind.asked, Bool.and_eq_true, beq_iff_eq]
  conv => lhs; rw [← settled_own hk s]
  by_cases hours : r.kind = kind.asked ∧ r.address = slot
  · have hpayload : r.payload = none := hlost.resolve_right fun h => h.elim (· hours.1) (· hours.2)
    simp only [State.judgeWake, if_pos (hattributed.2 hours), hpayload, addCorrected_settled hk, countFailed_settled hk,
      LinkVolatile.failedReply, if_pos hours]
    exact judgeMiss_eq hk s kind _
  · simp only [State.judgeWake, if_neg (mt hattributed.1 hours), LinkVolatile.failedReply, if_neg hours]
    exact judgeMiss_eq hk s kind _

theorem missedWake_frame (s : State) (slot kitId : Nat) (kind : ExchangeKind) (v : LinkVolatile) :
    (s.missedWake slot kitId kind v).fp = s.fp ∧ (s.missedWake slot kitId kind v).powered = s.powered ∧
      (s.missedWake slot kitId kind v).ret.active = s.ret.active := by
  have h : s.missedWake slot kitId kind v =
      { (s.setLink slot ((s.link slot).miss s.ret.config.silenceLimit)).setLinkVol slot (kind.missed v) with
        ru := (s.missedWake slot kitId kind v).ru } := sameButReports_handAll _ _
  rw [h]
  exact ⟨rfl, rfl, rfl⟩

/-! ### What cuts a reply off (R104, R115) -/

/-- The state when a slot ends, before its window is put away (R104, R116). -/
def State.cutOff (s : State) (blocks : List Block) : State :=
  match s.fp.reception with
  | some _ => s.endFrame blocks
  | none => if s.fp.window = ReplyWindow.closed then s else s.noReply

theorem endSlot_eq (s : State) (blocks : List Block) : s.endSlot blocks = { s.cutOff blocks with fp := (s.cutOff blocks).fp.ended } :=
  rfl

/-- The state in which the events after a cut-off go on. -/
def State.afterCut (t : State) : State :=
  { t with fp := { t.fp with window := .closed, recordMade := false, downlink := .silent, reception := none } }

/-- A slot's end that cuts something off, then the slot's successor as from the state after it (R104, R116). -/
theorem cutOff_continues {blocks : List Block} (hcut : s.cutOff blocks = t) (hreception : t.fp.reception = none)
    (hplace : t.fp.place = s.fp.place) (hpowered : t.powered = s.powered) (hactive : t.ret.active = s.ret.active)
    (hpower : s.powered = true) (hbusy : s.fp.busy = false) :
    (∀ n < 23, s.fp.place = .data n → exec (.slotStart blocks) s = exec (.slotStart []) t.afterCut) ∧
    (s.fp.place = .data 23 → s.ret.active.gap ≠ 0 →
      exec (.gapStart blocks) s = .next { t.afterCut with fp := { t.afterCut.fp with place := .gap } }) ∧
    (s.fp.place = .data 23 → s.ret.active.gap = 0 → exec (.cycleStart blocks) s = exec (.cycleStart []) t.afterCut) := by
  have hend : s.endSlot blocks = t.afterCut := by
    rw [endSlot_eq, hcut, State.afterCut, FieldPort.ended, ← hreception]
  have htpower : t.afterCut.powered = true := hpowered.trans hpower
  refine ⟨fun n hn hdata => ?_, fun hdata hgap => ?_, fun hdata hgap => ?_⟩
  · have hnext : s.fp.place.nextSlot s.ret.active.contentionCount = some (.data (n + 1)) := by
      rw [hdata]
      exact if_pos hn
    exact slotStart_cut hpower hbusy hnext hend htpower hplace hactive rfl rfl
  · change execGapStart blocks s = _
    have hdue : (s.powered && !s.fp.busy && s.fp.place == .data 23 && s.ret.active.gap != 0) = true := by
      simp [hpower, hbusy, hdata, hgap]
    rw [execGapStart, if_pos hdue, hend]
    rfl
  · have hdue : s.cycleStartDue = true := by simp [State.cycleStartDue, hpower, hbusy, hdata, hgap]
    have htplace : t.afterCut.fp.place = .data 23 := hplace.trans hdata
    have htgap : t.afterCut.ret.active.gap = 0 := by
      rw [← hgap, ← hactive]
      rfl
    rw [cycleStart_eq htpower rfl rfl rfl (.inr (.inr ⟨htplace, htgap⟩))]
    change execCycleStart blocks s = _
    rw [execCycleStart, if_pos hdue, hend]
    rfl

/-! ### The obligation -/

theorem isWake_eq_false {kind : ExchangeKind} (hpoll : kind.isPoll = false) (hprobe : ∀ p, kind ≠ .probe p) : kind.isWake = false := by
  cases kind with
  | poll c => cases hpoll
  | probe p => exact absurd rfl (hprobe p)
  | invite page => rfl
  | offer => rfl
  | decline => rfl

theorem countShort_counters (s : State) (r : FieldReception) (blocks : List Block) : (s.countShort r blocks).counters =
    if blocks.length < r.blockCount then { s.counters with shortFrames := min (s.counters.shortFrames + 1) 65535 } else s.counters := by
  unfold State.countShort
  split <;> rfl

/-- A bring-up's exchange whose record failed, or that asked for none, is lost without effect (R141, R151). -/
theorem exchangeOutcome_failed {kind : ExchangeKind} (h : s.lc.exchange = some ⟨kind, slot, kitId⟩) (hwake : kind.isWake = false)
    (fp : FieldPort) (counters : NodeCounters) {r : Arrival} (hpayload : r.payload = none) :
    State.exchangeOutcome { s with fp := fp, counters := counters } (some r) = s.exchangeTaken fp counters := by
  by_cases hdecline : kind = .decline
  · subst hdecline
    exact exchangeOutcome_decline h fp counters _
  · rw [exchangeOutcome_bringup h hwake hdecline, bringupReply_failed hpayload]

theorem exchangeOutcome_none_frame (hk : 1 ≤ slot ∧ slot ≤ 384) {kind : ExchangeKind} (h : s.lc.exchange = some ⟨kind, slot, kitId⟩) :
    (s.exchangeOutcome none).fp = s.fp ∧ (s.exchangeOutcome none).powered = s.powered ∧
      (s.exchangeOutcome none).ret.active = s.ret.active := by
  cases hwake : kind.isWake with
  | true =>
    have houtcome := (exchangeOutcome_wake h hwake s.fp s.counters none).trans (judgeWake_silent hk _ kind)
    have hframe := missedWake_frame (s.exchangeTaken s.fp s.counters) slot kitId kind
      ((s.exchangeTaken s.fp s.counters).linkVol slot)
    rw [← houtcome] at hframe
    exact hframe
  | false =>
    have houtcome : s.exchangeOutcome none = s.exchangeTaken s.fp s.counters := exchangeOutcome_lost h hwake s.fp s.counters
    rw [houtcome]
    exact ⟨rfl, rfl, rfl⟩

/-- A header arriving past its window that fails or is foreign makes the no-reply indication (R104). -/
theorem lateHeader_dropped {word : BitVec 16} {block : HeaderBlock} {n : Nat} (hplace : s.fp.place = .data n)
    (hwindow : s.fp.window = .lateHeader) (hreception : s.fp.reception = none) (hmade : s.fp.recordMade = false)
    (hpower : s.powered = true) (hstatus : s.fp.status = .claimed) (hmode : s.fp.effective ≠ .quiet)
    (hdownlink : s.fp.downlink = .silent) (hinside : block.outside = false) {name : CounterName}
    (htaken : s.takeHeader word block.bytes = s.bump name) : exec (.fieldHeaderBlock word block) s =
      .next (State.exchangeOutcome { s with fp := { s.fp with window := .closed }, counters := s.counters.bump name } none) := by
  have hadmits : s.fp.admitsHeader = true := by simp [FieldPort.admitsHeader, hplace, hwindow]
  rw [headerBlock_heard word hpower (hears_iff.2 ⟨⟨hinside, hstatus, hmode, hdownlink, hreception⟩, hadmits⟩), htaken]
  have hlate : (s.bump name).fp.window = .lateHeader := hwindow
  have hnone : ¬ ((s.bump name).setFp { (s.bump name).fp with window := .closed }).fp.reception.isSome := by
    change ¬ s.fp.reception.isSome
    rw [hreception]
    exact Bool.false_ne_true
  have hnot : ¬ ((s.bump name).setFp { (s.bump name).fp with window := .closed }).fp.recordMade = true := by
    change ¬ s.fp.recordMade = true
    rw [hmade]
    exact Bool.false_ne_true
  rw [State.settleLateHeader, if_pos hlate]
  dsimp only
  rw [if_neg hnone, State.noReply, if_neg hnot]
  rfl

/-- A reply window that runs out while a header arrives waits for it (R104). -/
theorem replyWindowClose_arriving (hwindow : s.fp.window = .open) (hreception : s.fp.reception = none) :
    exec (.replyWindowClose true) s = .next { s with fp := { s.fp with window := .lateHeader } } := by
  have hnone : ¬ s.fp.reception.isSome = true := by
    rw [hreception]
    exact Bool.false_ne_true
  change execReplyWindowClose true s = _
  simp only [execReplyWindowClose, hwindow]
  rw [if_neg hnone]
  rfl

/-- A reply window that runs out with a frame in reception just closes (R104). -/
theorem replyWindowClose_receiving {r : FieldReception} (hwindow : s.fp.window = .open) (hreception : s.fp.reception = some r)
    (arriving : Bool) : exec (.replyWindowClose arriving) s = .next { s with fp := { s.fp with window := .closed } } := by
  have hsome : s.fp.reception.isSome = true := by
    rw [hreception]
    rfl
  change execReplyWindowClose arriving s = _
  simp only [execReplyWindowClose, hwindow]
  rw [if_pos hsome]
  rfl

/-- A reply window that runs out in silence makes the no-reply indication (R104). -/
theorem replyWindowClose_silent (hwindow : s.fp.window = .open) (hreception : s.fp.reception = none) (hmade : s.fp.recordMade = false) :
    exec (.replyWindowClose false) s =
      .next (State.exchangeOutcome { s with fp := { s.fp with window := .closed }, counters := s.counters } none) := by
  have hnone : ¬ s.fp.reception.isSome = true := by
    rw [hreception]
    exact Bool.false_ne_true
  have hnot : ¬ (s.setFp { s.fp with window := .closed }).fp.recordMade = true := by
    change ¬ s.fp.recordMade = true
    rw [hmade]
    exact Bool.false_ne_true
  change execReplyWindowClose false s = _
  simp only [execReplyWindowClose, hwindow]
  rw [if_neg hnone]
  change Host.Outcome.next (s.setFp { s.fp with window := .closed }).noReply = _
  rw [State.noReply, if_neg hnot]
  rfl

/-- A header of a kind that no reply has is foreign in a data slot (R114). -/
theorem judgeHeader_noReply {fp : FieldPort} {word : BitVec 16} {block : Block} {d : Decoded} {n : Nat} (hplace : fp.place = .data n)
    (hd : decodeBlock 8 block = some d) (hcount : byteAt d.data 6 ≤ 4)
    (h : ¬ fp.addressed d ∨ UpKind.ofCode (byteAt d.data 0) ∉ [some UpKind.report, some .ability, some .confirm, some .echo]) :
    fp.judgeHeader word block = .foreign := by
  refine judgeHeader_foreign hd hcount (h.imp id fun hno k hk => ?_)
  rw [hk] at hno
  rw [hplace]
  cases k
  case call => rfl
  all_goals exact absurd (by decide) hno

/-- Settles O58: whatever lost the reply, the wake is judged by the exchange's outcome without a good record. -/
theorem missingReplyIsMiss : Obligations.MissingReplyIsMiss := by
  rintro s ⟨kind, slot, kitId⟩ hlow hhigh hexchange hmade l v misses silent judged noEcho closed cutTo missed
  have hk : 1 ≤ slot ∧ slot ≤ 384 := ⟨hlow, hhigh⟩
  have hnoReply : s.noReply = s.exchangeOutcome none := by
    rw [State.noReply, hmade]
    rfl
  have hmissed (fp : FieldPort) (counters : NodeCounters) (hcycle : fp.cycle = s.fp.cycle) (outcome : State → Prop)
      (h : outcome (State.exchangeOutcome { s with fp := fp, counters := counters } none)) : missed fp counters outcome := by
    refine ⟨fun carried hkind => ?_, fun p hkind => ?_, fun hkind => ?_, fun hpoll hprobe => ?_⟩
    · cases hkind
      rw [exchangeOutcome_wake hexchange rfl, judgeWake_silent hk] at h
      exact h
    · cases hkind
      rw [exchangeOutcome_wake hexchange rfl, judgeWake_silent hk, State.missedWake] at h
      have hrecords : ExchangeKind.missRecords (.probe (some p)) slot kitId (s.exchangeTaken fp counters).fp.cycle = [noEcho p] := by
        change [_] = [_]
        rw [show (s.exchangeTaken fp counters).fp.cycle = s.fp.cycle from hcycle]
      rw [hrecords] at h
      exact h
    · cases hkind
      rw [exchangeOutcome_wake hexchange rfl, judgeWake_silent hk] at h
      exact h
    · rw [exchangeOutcome_lost hexchange (isWake_eq_false hpoll hprobe)] at h
      exact h
  refine ⟨fun hwindow hreception => ?_, fun n word block hplace hwindow hreception hpower hstatus hmode hdownlink hinside => ?_,
    fun r hwindow hreception arriving => ?_, fun n r blocks hplace hreception => ?_, fun n hplace hwindow hreception => ?_⟩
  · exact ⟨replyWindowClose_arriving hwindow hreception,
      hmissed closed s.counters rfl (fun t => exec (.replyWindowClose false) s = .next t)
        (replyWindowClose_silent hwindow hreception hmade)⟩
  · intro dropped
    have hdropped {name : CounterName} (htaken : s.takeHeader word block.bytes = s.bump name) : dropped name :=
      hmissed closed (s.counters.bump name) rfl (fun t => exec (.fieldHeaderBlock word block) s = .next t)
        (lateHeader_dropped hplace hwindow hreception hmade hpower hstatus hmode hdownlink hinside htaken)
    have hfailed (hverdict : s.fp.judgeHeader word block.bytes = .failed) : dropped .headerFails :=
      hdropped (by simp only [State.takeHeader, hverdict, State.countHeaderFail, hplace])
    refine ⟨fun hnone => hfailed (judgeHeader_undecoded hnone), fun d hd => ?_⟩
    intro ours kinds
    refine ⟨fun hcount => hfailed (judgeHeader_long hd hcount), fun hcount hforeign => ?_⟩
    have hverdict := judgeHeader_noReply (word := word) hplace hd hcount hforeign
    exact hdropped (by simp only [State.takeHeader, hverdict])
  · exact replyWindowClose_receiving hwindow hreception arriving
  · intro arrival fp counters lost failed ends
    have hcounters : (s.countShort r blocks).counters = counters := countShort_counters s r blocks
    have hend : s.endFrame blocks = State.exchangeOutcome { s with fp := fp, counters := counters } (some arrival) := by
      rw [endFrame_first hplace hreception hmade, hcounters]
      rfl
    have hends {t : State} (ht : State.exchangeOutcome { s with fp := fp, counters := counters } (some arrival) = t)
        (hfp : t.fp = fp) (hpowered : t.powered = s.powered) (hactive : t.ret.active = s.ret.active) : ends t := by
      have hframe := hend.trans ht
      refine ⟨congrArg _ hframe, congrArg _ hframe, cutOff_continues ?_ (by rw [hfp]) (by rw [hfp]) hpowered hactive⟩
      rw [State.cutOff, hreception]
      exact hframe
    have hwake (hwake : kind.isWake = true) (hlost : lost kind.asked) {t : State}
        (ht : (s.exchangeTaken fp counters).missedWake slot kitId kind (v.failedReply arrival slot kind.asked) = t) : ends t := by
      obtain ⟨hfp, hpowered, hactive⟩ := missedWake_frame (s.exchangeTaken fp counters) slot kitId kind
        (v.failedReply arrival slot kind.asked)
      have hjudged := (exchangeOutcome_wake hexchange hwake fp counters (some arrival)).trans
        (judgeWake_lost (kitId := kitId) hk hlost (s.exchangeTaken fp counters))
      exact hends (hjudged.trans ht) (by rw [← ht]; exact hfp) (by rw [← ht]; exact hpowered) (by rw [← ht]; exact hactive)
    refine ⟨fun hshort => arrival_short hshort true, fun carried hkind hlost => ?_, fun p hkind hlost => ?_, fun hkind hlost => ?_,
      fun hpoll hprobe hpayload => ?_⟩
    · cases hkind
      refine hwake rfl hlost ?_
      rw [State.missedWake, ExchangeKind.asked, ExchangeKind.isPoll, if_pos rfl, missed_poll]
      rfl
    · cases hkind
      refine hwake rfl hlost ?_
      rw [State.missedWake, ExchangeKind.asked, ExchangeKind.isPoll, if_neg Bool.false_ne_true, missed_probe]
      rfl
    · cases hkind
      exact hwake rfl hlost rfl
    · exact hends (exchangeOutcome_failed hexchange (isWake_eq_false hpoll hprobe) fp counters hpayload) rfl rfl rfl
  · have hcut {t : State} (ht : s.noReply = t) (hfp : t.fp = s.fp) (hpowered : t.powered = s.powered)
        (hactive : t.ret.active = s.ret.active) : cutTo [] t := by
      refine cutOff_continues ?_ (by rw [hfp, hreception]) (by rw [hfp]) hpowered hactive
      rw [State.cutOff, hreception]
      exact (if_neg hwindow).trans ht
    obtain ⟨hfp, hpowered, hactive⟩ := exchangeOutcome_none_frame hk hexchange
    exact hmissed s.fp s.counters rfl (cutTo []) (hcut hnoReply hfp hpowered hactive)

end Sys2Proof.Machine
end

section
/-!
The replies of a bring-up (R141, R142, R145, R64, R147): pages held, and a CONFIRM that agrees or differs.
-/

namespace Sys2Proof.Machine

variable {s t w : State} {k slot kitId : Nat} {a : Account} {l : LinkRetained} {v : LinkVolatile} {rs : List Report}
  {payload : List Byte} {r : Arrival} {c : Caller}

/-! ### Replies discarded (R116, R128, R141, R151) -/

theorem bringupReply_unqueued (h : s.caller slot = none) (kind : ExchangeKind) (r : Arrival) : s.bringupReply slot kitId kind r = s := by
  unfold State.bringupReply
  split
  · next hsome _ => rw [h] at hsome; cases hsome
  · rfl

theorem exchangeOutcome_none (h : s.lc.exchange = none) (arrival : Option Arrival) : s.exchangeOutcome arrival = s := by
  simp only [State.exchangeOutcome, h]

/-! ### Replies taken or lost (R141) -/

section replies

variable (hc : s.caller slot = some c) (hpayload : r.payload = some payload)

include hc hpayload

/-- A reply of another kit, or with another address, changes nothing. -/
theorem bringupReply_foreign (h : ¬ (c.kitId = kitId ∧ r.address = 0)) (kind : ExchangeKind) : s.bringupReply slot kitId kind r = s := by
  simp only [State.bringupReply, hc, hpayload, if_neg h]

variable (hours : c.kitId = kitId ∧ r.address = 0)

include hours

theorem bringupReply_page1 (hkind : r.kind = .ability) : s.bringupReply slot kitId (.invite 1) r =
    if byteAt payload 0 = 1 ∧ (Page1.read payload).kitId = kitId ∧ (Page1.read payload).inRange
    then s.takePage1 slot (Page1.read payload) else s := by
  simp only [State.bringupReply, hc, hpayload, hkind, if_pos hours]

theorem bringupReply_page2 (hkind : r.kind = .ability) : s.bringupReply slot kitId (.invite 2) r =
    if byteAt payload 0 = 2 ∧ field payload 1 4 = kitId ∧ (Page2.read payload).preferred ≤ 6
    then s.mapLinkVol slot fun v => { v with page2 := some (Page2.read payload) } else s := by
  simp only [State.bringupReply, hc, hpayload, hkind, if_pos hours]

theorem bringupReply_confirm (hkind : r.kind = .confirm) {held : Page1} (hheld : (s.linkVol slot).page1 = some held) :
    s.bringupReply slot kitId .offer r =
      if (ConfirmPayload.read payload).agrees slot (s.link slot).placement held then s.confirmMatch slot held
      else s.confirmMismatch slot := by
  simp only [State.bringupReply, hc, hpayload, hkind, hheld, if_pos hours]

/-- A reply of the wrong kind changes nothing. -/
theorem bringupReply_kind {kind : ExchangeKind}
    (h : (∀ page, kind = .invite page → r.kind ≠ .ability) ∧ (kind = .offer → r.kind ≠ .confirm)) :
    s.bringupReply slot kitId kind r = s := by
  simp only [State.bringupReply, hc, hpayload, if_pos hours]
  split
  · next hr => exact absurd hr (h.1 1 rfl)
  · next hr => exact absurd hr (h.1 2 rfl)
  · next hr => exact absurd hr (h.2 rfl)
  · rfl

end replies

/-! ### Page 1 (R142) -/

theorem page1_inRange_iff (bs : List Byte) : (Page1.read bs).inRange = true ↔
    1 ≤ field bs 7 2 ∧ byteAt bs 9 ≤ byteAt bs 10 ∧ byteAt bs 10 ≤ 6 ∧ byteAt bs 5 ≤ 15 := by
  have hgrant : field bs 7 2 ≤ 65535 := Nat.le_of_lt_succ (field_lt bs 7 2)
  rw [Page1.inRange, decide_eq_true_iff]
  exact ⟨fun ⟨h1, _, h2⟩ => ⟨h1, h2⟩, fun ⟨h1, h2⟩ => ⟨h1, hgrant, h2⟩⟩

theorem takePage1_last {p : Page1} (h : p.nextPage = false) (s : State) :
    s.takePage1 slot p = s.setLinkVol slot { s.linkVol slot with page1 := some p } := by
  simp only [State.takePage1, h, Bool.false_eq_true, if_false]
  rfl

theorem takePage1_more {p : Page1} (h : p.nextPage = true) (s : State) : s.takePage1 slot p =
    (s.setLinkVol slot { s.linkVol slot with page1 := some p, progress := some .page2 }).setLink slot
      (if (s.link slot).state = .bringup .invited then { s.link slot with state := .bringup .page2 } else s.link slot) := by
  simp only [State.takePage1, h, if_true]
  rfl

/-! ### A CONFIRM that agrees (R145, R64, R147) -/

theorem confirm_agrees_iff {bs : List Byte} {offered : Option Placement} {held : Page1} :
    (ConfirmPayload.read bs).agrees slot offered held = true ↔
      field bs 0 4 = held.kitId ∧ field bs 4 2 = slot ∧ offered = some ⟨byteAt bs 6, byteAt bs 7, byteAt bs 8⟩ ∧
        held.figures = ⟨byteAt bs 9, byteAt bs 10, field bs 11 2, byteAt bs 13, byteAt bs 14⟩ ∧
        held.nextPage = (bs.getD 15 0).getLsbD 0 ∧ field bs 16 3 = held.meter ∧ byteAt bs 19 = held.applied ∧
        field bs 20 3 = held.remaining := by
  simp only [ConfirmPayload.agrees, ConfirmPayload.read, Bool.and_eq_true, beq_iff_eq]
  constructor
  · rintro ⟨⟨⟨⟨⟨⟨⟨haddress, hplacement⟩, hkit⟩, hfigures⟩, hnext⟩, hmeter⟩, happlied⟩, hremaining⟩
    exact ⟨hkit, haddress, hplacement.symm, hfigures.symm, hnext.symm, hmeter, happlied, hremaining⟩
  · rintro ⟨hkit, haddress, hplacement, hfigures, hnext, hmeter, happlied, hremaining⟩
    exact ⟨⟨⟨⟨⟨⟨⟨haddress, hplacement.symm⟩, hkit⟩, hfigures.symm⟩, hnext.symm⟩, hmeter⟩, happlied⟩, hremaining⟩

/-- The events that page 2 reported, none without it (R64). -/
def LinkVolatile.shownEvents (v : LinkVolatile) : KitEvents :=
  match v.page2 with
  | some p2 => p2.events
  | none => ⟨false, false, false, false⟩

/-- The state in which the confirmation is delivered (R145). -/
def State.confirmed (s : State) (slot : Nat) (held : Page1) : State :=
  (s.setLinkVol slot { s.linkVol slot with progress := some .confirmed, reportTaken := false }).setLink slot
    { s.link slot with state := .bringup .confirmed, figures := some held.figures }

theorem confirmMatch_eq (s : State) (slot : Nat) (held : Page1) :
    s.confirmMatch slot held = (s.confirmed slot held).confirmDelivery slot held (s.linkVol slot).shownEvents := by
  have hevents : (((s.linkVol slot).page2.map Page2.events).getD {}) = (s.linkVol slot).shownEvents := by
    unfold LinkVolatile.shownEvents
    cases (s.linkVol slot).page2 <;> rfl
  rw [← hevents]
  rfl

section delivery

variable {held : Page1} {shown : KitEvents} (ha : s.account slot = some a) (hkit : a.kitId = held.kitId)

include ha hkit

theorem confirmDelivery_overtaken (hbound : a.boundOnce = true) (h : held.overtaken = true) :
    s.confirmDelivery slot held shown = s := by
  simp only [State.confirmDelivery, ha, if_pos hkit, if_pos hbound, if_pos h]

theorem confirmDelivery_reconciled {plan : Plan} (hplan : s.plan a.plan = some plan) (hbound : a.boundOnce = true)
    (h : held.overtaken = false) : s.confirmDelivery slot held shown =
      let rep : KitReport := ⟨held.applied, held.meter, held.remaining, false, 0, shown⟩
      (s.setAccount slot (some (a.reconcile plan slot rep ⟨none, false, false, none⟩).1)).handAll
        (a.reconcile plan slot rep ⟨none, false, false, none⟩).2 := by
  simp only [State.confirmDelivery, ha, if_pos hkit, if_pos hbound, h, Bool.false_eq_true, if_false, planOf_eq hplan]

theorem confirmDelivery_adopted (hbound : a.boundOnce = false) : s.confirmDelivery slot held shown =
    (s.setAccount slot (some (a.adopt slot held shown).1)).handAll (a.adopt slot held shown).2 := by
  simp only [State.confirmDelivery, ha, if_pos hkit, hbound, Bool.false_eq_true, if_false]

end delivery

/-! ### Fresh adoption (R147) -/

/-- The account with what page 1 and page 2 report adopted, its meter apart (R147). -/
def Account.adopted (a : Account) (held : Page1) (shown : KitEvents) : Account :=
  { a with q := held.applied, allowance := held.remaining, latch := a.latch.add shown }

/-- Whether an adoption finds the meter gone backwards (R147). -/
def Account.adoptsRegress (a : Account) (held : Page1) : Prop :=
  ∃ u, a.baseline = some u ∧ a.rebaseDue = false ∧ 8388608 < meterDistance held.meter u

theorem adoptsRegress_iff (a : Account) (held : Page1) : a.adoptsRegress held ↔
    (!(a.rebaseDue || a.baseline.isNone) && regressed (meterDistance held.meter (a.baseline.getD 0))) = true := by
  generalize hd : (fun u => meterDistance held.meter u) = d
  have hd' (u : Nat) : meterDistance held.meter u = d u := congrFun hd u
  simp only [Account.adoptsRegress, regressed, hd']
  cases a.baseline with
  | none => simp
  | some u => cases a.rebaseDue <;> simp

theorem adopt_sound {held : Page1} (h : ¬ a.adoptsRegress held) (slot : Nat) (shown : KitEvents) :
    a.adopt slot held shown = ({ a.adopted held shown with baseline := some held.meter, rebaseDue := false },
      eventRecords slot a.kitId (newEvents a.latch shown)) := by
  rw [adoptsRegress_iff, Bool.not_eq_true] at h
  simp only [Account.adopt]
  generalize meterDistance held.meter (a.baseline.getD 0) = d at h
  rw [if_neg (by rw [h]; exact Bool.false_ne_true), if_neg (by rw [h]; exact Bool.false_ne_true)]
  rfl

theorem adopt_regress {held : Page1} (h : a.adoptsRegress held) (slot : Nat) (shown : KitEvents) :
    a.adopt slot held shown =
      let (b, qs, ns, causes) := (a.adopted held shown).quarantine slot .regress []
      (b, eventRecords slot a.kitId (newEvents a.latch shown) ++ qs ++ noticeRecords 0 slot (ns ++ causes.map .cause)) := by
  rw [adoptsRegress_iff] at h
  simp only [Account.adopt]
  generalize meterDistance held.meter (a.baseline.getD 0) = d at h
  rw [if_pos h, if_pos h]
  rfl

theorem adopt_regress_first {held : Page1} (h : a.adoptsRegress held) (hstate : a.state ≠ .quarantined) (hgrant : a.pendingGrant = none)
    (slot : Nat) (shown : KitEvents) : a.adopt slot held shown =
      ({ a.adopted held shown with state := .quarantined, cause := some .regress, revokeDue := true, lockNoticeDue := true },
        eventRecords slot a.kitId (newEvents a.latch shown) ++
          [⟨0, slot, .quarantine a.kitId .regress a.state a.balance held.remaining a.arrears held.applied⟩]) := by
  have hheld : (a.adopted held shown).state ≠ .quarantined := hstate
  have hnone : ({ a.adopted held shown with cause := some .regress } : Account).pendingGrant = none := hgrant
  rw [adopt_regress h, quarantine_first hheld, enterHold_none hnone]
  simp only [List.map_nil, List.append_nil, noticeRecords]
  rfl

theorem adopt_regress_again {held : Page1} (h : a.adoptsRegress held) (hstate : a.state = .quarantined) (slot : Nat)
    (shown : KitEvents) : a.adopt slot held shown =
      (a.adopted held shown, eventRecords slot a.kitId (newEvents a.latch shown) ++ [⟨0, slot, .notice (.cause .regress)⟩]) := by
  have hheld : (a.adopted held shown).state = .quarantined := hstate
  rw [adopt_regress h, quarantine_again hheld]
  simp only [List.append_nil]
  rfl

/-! ### A CONFIRM that differs (R145) -/

theorem confirmMismatch_again (h : (s.linkVol slot).mismatches < 2) : s.confirmMismatch slot =
    ((s.release slot).setLink slot { s.link slot with placement := none, state := .bringup .invited }).setLinkVol slot
      { s.linkVol slot with
        progress := some .invited, page1 := none, page2 := none, mismatches := (s.linkVol slot).mismatches + 1 } := by
  have hvol : (((s.release slot).mapLink slot fun l => { l with state := .bringup .invited }).linkVol slot) = s.linkVol slot := by
    rw [linkVol_mapLink, linkVol_release]
  have hfew : ¬ 2 ≤ (s.linkVol slot).mismatches := by omega
  simp only [State.confirmMismatch, hvol, if_neg hfew, State.mapLinkVol]
  rw [State.mapLink, link_release, if_pos rfl]

/-- What the third mismatch leaves: the failure CONSISTENCY (R145, R150). -/
theorem confirmMismatch_third (h : 2 ≤ (s.linkVol slot).mismatches) : s.confirmMismatch slot =
    ((s.release slot).mapLink slot fun l => { l with state := .bringup .invited }).failBringup slot .consistency := by
  have hvol : (((s.release slot).mapLink slot fun l => { l with state := .bringup .invited }).linkVol slot) = s.linkVol slot := by
    rw [linkVol_mapLink, linkVol_release]
  simp only [State.confirmMismatch, hvol, if_pos h]

/-- What the third mismatch leaves of the state (R145, R150). -/
theorem confirmMismatch_ended (hk : 1 ≤ slot ∧ slot ≤ 384) (hmany : 2 ≤ (s.linkVol slot).mismatches) :
    let t := s.confirmMismatch slot
    t.ret = { (s.release slot).ret with links := t.ret.links } ∧
      t.link slot = { s.link slot with placement := none, state := .absent } ∧
      t.linkVol slot = (s.linkVol slot).declining .consistency ∧ (∀ j, j ≠ slot → t.link j = s.link j ∧ t.linkVol j = s.linkVol j) ∧
      t.lc.callers = s.lc.callers ∧ t.fp = s.fp ∧
      t.ru = (s.hand ⟨0, slot, .link ((s.link slot).kitId.getD 0)
        (.bringupFailed .consistency ((s.linkVol slot).progress.getD .waiting) (s.linkVol slot).mismatches)⟩).ru := by
  intro t
  have ht : t = ((s.release slot).mapLink slot fun l => { l with state := .bringup .invited }).failBringup slot .consistency :=
    confirmMismatch_third hmany
  have hreleased := localTo_release s slot
  generalize hy : ((s.release slot).mapLink slot fun l => { l with state := .bringup .invited }) = y at ht
  have hlocal : LocalTo slot s y := by
    rw [← hy]
    exact hreleased.trans (localTo_mapLink _ _ _)
  have hylink : y.link slot = { s.link slot with placement := none, state := .bringup .invited } := by
    rw [← hy, link_mapLink_self hk, link_release, if_pos rfl]
  have hyvol : y.linkVol slot = s.linkVol slot := by rw [← hy, linkVol_mapLink, linkVol_release]
  have hyru : y.ru = s.ru := by
    rw [← hy]
    exact (congrArg State.ru (release_frame s slot)).trans rfl
  have hycallers : y.lc.callers = s.lc.callers := by
    rw [← hy]
    exact congrArg LinkControl.callers (release_lc s slot)
  obtain ⟨hlink, hvol, hcallers, -⟩ := failBringup_timeout hk (.inl rfl) y
  have hend : LocalTo slot s t := by
    rw [ht]
    exact hlocal.trans (localTo_failBringup y slot .consistency)
  refine ⟨?_, ?_, ?_, fun j hj => ⟨hend.link j hj, hend.linkVol j hj⟩, ?_, hend.fp, ?_⟩
  · have hcalendar : t.ret.calendar = (s.release slot).ret.calendar := by
      rw [ht, failBringup_calendar (by rw [hylink]), ← hy]
      rfl
    have hret : t.ret = { s.ret with calendar := t.ret.calendar, links := t.ret.links } := congrArg State.ret hend.frame
    have hrelease : (s.release slot).ret = { s.ret with
        calendar := (s.release slot).ret.calendar, links := (s.release slot).ret.links } := congrArg State.ret hreleased.frame
    generalize t.ret = f at hret hcalendar ⊢
    generalize (s.release slot).ret = g at hrelease hcalendar ⊢
    rw [hret, hrelease, hcalendar]
  · rw [ht, hlink, hylink]
    rfl
  · rw [ht, hvol, hyvol]
  · rw [ht]
    exact hcallers.trans hycallers
  · have hadvisory : y.failAdvisory slot .consistency = ⟨0, slot, .link ((s.link slot).kitId.getD 0)
        (.bringupFailed .consistency ((s.linkVol slot).progress.getD .waiting) (s.linkVol slot).mismatches)⟩ := by
      rw [State.failAdvisory, hylink, hyvol]
    rw [ht, failBringup_ru, hadvisory]
    exact hlocal.hand_ru hyru _

/-! ### The obligation -/

/-- The end of a frame whose record reaches nobody: the exchange is over (R116, R128), or it asked for none (R141, R151). -/
theorem frameEnd_discarded {n : Nat} {fr : FieldReception} (hplace : s.fp.place = .data n) (hreception : s.fp.reception = some fr)
    (blocks : List Block) {lc : LinkControl}
    (h : s.fp.recordMade = true ∧ lc = s.lc ∨
      s.fp.recordMade = false ∧ ∀ counters, State.exchangeOutcome { s with fp := s.fp.recorded, counters := counters }
        (some (fr.arrival blocks true)) = { s with fp := s.fp.recorded, counters := counters, lc := lc }) :
    s.endFrame blocks = { s with fp := s.fp.recorded, counters := (s.countShort fr blocks).counters, lc := lc } := by
  rcases h with ⟨hmade, rfl⟩ | ⟨hmade, houtcome⟩
  · rw [endFrame_data hplace hreception, hmade, countShort_frame]
    rfl
  · rw [endFrame_first hplace hreception hmade, houtcome]

/-- Settles O57: the reply by its kind and the exchange it answers, and a CONFIRM by whether it repeats what the node holds. -/
theorem bringupRepliesAreTaken : Obligations.BringupRepliesAreTaken := by
  intro s blocks n r hplace hreception
  refine ⟨?_, fun slot kitId payload kind c hmade hwhole hpayload hexchange hlow hhigh hc => ?_⟩
  · intro fp counters discarded
    have hcounters : (s.countShort r blocks).counters = counters := countShort_counters s r blocks
    have hdiscard {lc : LinkControl} (h : s.fp.recordMade = true ∧ lc = s.lc ∨
        s.fp.recordMade = false ∧ ∀ counters, State.exchangeOutcome { s with fp := s.fp.recorded, counters := counters }
          (some (r.arrival blocks true)) = { s with fp := s.fp.recorded, counters := counters, lc := lc }) : discarded lc := by
      have hend := frameEnd_discarded hplace hreception blocks h
      rw [hcounters] at hend
      exact ⟨congrArg Host.Outcome.next hend, congrArg Host.Outcome.next hend⟩
    refine ⟨fun h => ?_, fun slot kitId hmade h => hdiscard (.inr ⟨hmade, fun counters => ?_⟩)⟩
    · cases hmade : s.fp.recordMade with
      | true => exact hdiscard (.inl ⟨hmade, rfl⟩)
      | false =>
        have hnone : s.lc.exchange = none := h.resolve_left (by rw [hmade]; exact Bool.false_ne_true)
        exact hdiscard (.inr ⟨hmade, fun counters => exchangeOutcome_none (s := { s with fp := _, counters := counters }) hnone _⟩)
    · rcases h with h | ⟨h, hqueue⟩
      · exact exchangeOutcome_decline h _ _ _
      · have hunqueued {kind : ExchangeKind} (hkind : s.lc.exchange = some ⟨kind, slot, kitId⟩) (hwake : kind.isWake = false)
            (hdecline : kind ≠ .decline) : State.exchangeOutcome { s with fp := s.fp.recorded, counters := counters }
              (some (r.arrival blocks true)) = s.exchangeTaken s.fp.recorded counters := by
          rw [exchangeOutcome_bringup hkind hwake hdecline, bringupReply_unqueued]
          exact hqueue
        rcases h with h | h | h
        · exact hunqueued h rfl (by simp)
        · exact hunqueued h rfl (by simp)
        · exact hunqueued h rfl (by simp)
  · intro l v w outcome ours p1 events page1Ok page2Ok
    have hk : 1 ≤ slot ∧ slot ≤ 384 := ⟨hlow, hhigh⟩
    have hwc : w.caller slot = some c := hc
    have hexec (hwake : kind.isWake = false) (hdecline : kind ≠ .decline) {t : State}
        (ht : w.bringupReply slot kitId kind (r.arrival blocks true) = t) : outcome t := by
      change exec (.fieldFrameEnd blocks) s = _
      rw [fieldFrameEnd_eq, endFrame_first hplace hreception hmade, countShort_of_whole hwhole,
        exchangeOutcome_bringup hexchange hwake hdecline]
      exact congrArg _ ht
    have hours : ours ↔ c.kitId = kitId ∧ (r.arrival blocks true).address = 0 := Iff.rfl
    refine ⟨fun hkind => ?_, fun hkind => ?_, fun hkind => ?_⟩
    · subst hkind
      have hpage (hwe : ours) (hability : r.kind = .ability) := bringupReply_page1 (s := w) (r := r.arrival blocks true) hwc hpayload
        hwe hability
      have htake (h : page1Ok) : w.bringupReply slot kitId (.invite 1) (r.arrival blocks true) = w.takePage1 slot p1 := by
        obtain ⟨hwe, hability, hfirst, hkit, hrange⟩ := h
        exact (hpage hwe hability).trans (if_pos ⟨hfirst, hkit, (page1_inRange_iff payload).2 hrange⟩)
      refine ⟨fun h hlast => hexec rfl (by simp) ((htake h).trans (takePage1_last hlast w)),
        fun h hmore => hexec rfl (by simp) ((htake h).trans (takePage1_more hmore w)), fun h => hexec rfl (by simp) ?_⟩
      by_cases hwe : ours
      · by_cases hability : r.kind = .ability
        · refine (hpage hwe hability).trans (if_neg fun hok => h ?_)
          obtain ⟨hfirst, hkit, hrange⟩ := hok
          exact ⟨hwe, hability, hfirst, hkit, (page1_inRange_iff payload).1 hrange⟩
        · exact bringupReply_kind hwc hpayload hwe ⟨fun _ _ => hability, fun hno => (nomatch hno)⟩
      · exact bringupReply_foreign hwc hpayload hwe _
    · subst hkind
      have hpage (hwe : ours) (hability : r.kind = .ability) := bringupReply_page2 (s := w) (r := r.arrival blocks true) hwc hpayload
        hwe hability
      refine ⟨fun h => hexec rfl (by simp) ?_, fun h => hexec rfl (by simp) ?_⟩
      · obtain ⟨hwe, hability, hok⟩ := h
        exact (hpage hwe hability).trans (if_pos hok)
      · by_cases hwe : ours
        · by_cases hability : r.kind = .ability
          · exact (hpage hwe hability).trans (if_neg fun hok => h ⟨hwe, hability, hok⟩)
          · exact bringupReply_kind hwc hpayload hwe ⟨fun _ _ => hability, fun hno => (nomatch hno)⟩
        · exact bringupReply_foreign hwc hpayload hwe _
    · subst hkind
      refine ⟨fun h => hexec rfl (by simp) ?_, fun held hwe hconfirm hheld => ?_⟩
      · by_cases hwe : ours
        · exact bringupReply_kind hwc hpayload hwe ⟨fun _ hno => (nomatch hno), fun _ => h.resolve_left (not_not.2 hwe)⟩
        · exact bringupReply_foreign hwc hpayload hwe _
      · intro equal
        have hreply := bringupReply_confirm (s := w) (r := r.arrival blocks true) hwc hpayload hwe hconfirm hheld
        have hagree : (ConfirmPayload.read payload).agrees slot (w.link slot).placement held = true ↔ equal := confirm_agrees_iff
        refine ⟨fun hequal a plan ha hkit hplan => ?_, fun hdiffer hfew => ?_, fun hdiffer hmany => ?_⟩
        · intro x shown rep
          have hdelivered {t : State} (ht : x.confirmDelivery slot held shown = t) : outcome t :=
            hexec rfl (by simp) ((hreply.trans (if_pos (hagree.2 hequal))).trans ((confirmMatch_eq w slot held).trans ht))
          have hxa : x.account slot = some a := ha
          have hxplan : x.plan a.plan = some plan := hplan
          refine ⟨fun hbound hover => hdelivered (confirmDelivery_overtaken hxa hkit hbound hover),
            fun hbound hover => hdelivered (confirmDelivery_reconciled hxa hkit hxplan hbound hover), fun hbound hgrant => ?_⟩
          intro latch fresh b regress
          have hfresh : eventRecords slot a.kitId (newEvents a.latch shown) = fresh := eventRecords_newEvents slot a.kitId _ _
          have hadopted {y : Account × List Report} (hy : a.adopt slot held shown = y) :
              outcome ((x.setAccount slot (some y.1)).handAll y.2) := by
            subst hy
            exact hdelivered (confirmDelivery_adopted hxa hkit hbound)
          rw [← hfresh]
          exact ⟨fun h => hadopted (adopt_sound h slot shown), fun h hstate => hadopted (adopt_regress_first h hstate hgrant slot shown),
            fun h hstate => hadopted (adopt_regress_again h hstate slot shown)⟩
        · exact hexec rfl (by simp) ((hreply.trans (if_neg (mt hagree.1 hdiffer))).trans (confirmMismatch_again hfew))
        · obtain ⟨hret, hlink, hvol, hothers, hcallers, hfp, hru⟩ := confirmMismatch_ended (s := w) hk hmany
          exact ⟨_, hexec rfl (by simp) (hreply.trans (if_neg (mt hagree.1 hdiffer))), hret, hlink, hvol, hothers, hcallers, hfp, hru⟩

end Sys2Proof.Machine
end

section
/-!
The block code (R113, R187): the syndrome and the parity of a received block, and what inverted bits do to them.
-/

namespace Sys2Proof.Machine

/-! ### Bits in keying order -/

theorem byteBits_length (b : Byte) : (byteBits b).length = 8 := rfl

theorem keyingBits_length (bs : List Byte) : (keyingBits bs).length = 8 * bs.length := by
  induction bs with
  | nil => rfl
  | cons b bs ih =>
    change (byteBits b ++ keyingBits bs).length = _
    rw [List.length_append, ih, byteBits_length, List.length_cons]
    omega

theorem byteOfBits_byteBits (b : Byte) : byteOfBits (byteBits b) = b := by
  revert b
  decide

theorem bytesOfBits_keyingBits (bs : List Byte) : bytesOfBits bs.length (keyingBits bs) = bs := by
  induction bs with
  | nil => rfl
  | cons b bs ih =>
    change byteOfBits ((byteBits b ++ keyingBits bs).take 8) :: bytesOfBits bs.length ((byteBits b ++ keyingBits bs).drop 8) = _
    rw [List.take_left' (byteBits_length b), List.drop_left' (byteBits_length b), byteOfBits_byteBits, ih]

/-- The byte with its bit `k`, counted from the most significant, inverted (R161). -/
def invertBit (b : Byte) (k : Nat) : Byte := b ^^^ (0x80#8 >>> k)

theorem byteBits_invertBit (b : Byte) {k : Nat} (hk : k < 8) : byteBits (invertBit b k) = flipBit (byteBits b) k := by
  revert b
  interval_cases k <;> decide

section modify

variable {α : Type} {f : α → α}

theorem modify_append_left {xs : List α} {i : Nat} (h : i < xs.length) (ys : List α) :
    (xs ++ ys).modify i f = xs.modify i f ++ ys := by
  induction xs generalizing i with
  | nil => cases h
  | cons x xs ih =>
    cases i with
    | zero => rfl
    | succ i => exact congrArg (x :: ·) (ih (Nat.lt_of_succ_lt_succ h))

theorem modify_append_right (xs ys : List α) (i : Nat) : (xs ++ ys).modify (xs.length + i) f = xs ++ ys.modify i f := by
  induction xs with
  | nil => rw [List.nil_append, List.length_nil, Nat.zero_add, List.nil_append]
  | cons x xs ih =>
    rw [List.cons_append, List.length_cons, Nat.succ_add]
    exact congrArg (x :: ·) ih

end modify

theorem keyingBits_modify {bs : List Byte} {i : Nat} (h : i < 8 * bs.length) :
    keyingBits (bs.modify (i / 8) fun b => invertBit b (i % 8)) = flipBit (keyingBits bs) i := by
  induction bs generalizing i with
  | nil => cases h
  | cons b bs ih =>
    change _ = flipBit (byteBits b ++ keyingBits bs) i
    by_cases hi : i < 8
    · have hfirst : i / 8 = 0 ∧ i % 8 = i := by omega
      rw [hfirst.1, hfirst.2, flipBit, modify_append_left hi, ← flipBit, ← byteBits_invertBit b hi]
      rfl
    · obtain ⟨j, rfl⟩ := Nat.exists_eq_add_of_le (Nat.not_lt.1 hi)
      have hj : (8 + j) / 8 = j / 8 + 1 ∧ (8 + j) % 8 = j % 8 := by omega
      have hlength : j < 8 * bs.length := by
        rw [List.length_cons] at h
        omega
      rw [hj.1, hj.2, ← byteBits_length b, flipBit, modify_append_right, ← flipBit, ← ih hlength]
      rfl

/-! ### Parity and check bits -/

theorem foldl_xor (bits : List Bool) (acc : Bool) : bits.foldl xor acc = xor acc (parity bits) := by
  induction bits generalizing acc with
  | nil => simp [parity]
  | cons b bits ih =>
    have hparity : parity (b :: bits) = xor b (parity bits) := by
      change bits.foldl xor (xor false b) = _
      rw [ih, Bool.false_xor]
    rw [List.foldl_cons, ih, hparity, Bool.xor_assoc]

theorem parity_cons (b : Bool) (bits : List Bool) : parity (b :: bits) = xor b (parity bits) := by
  change bits.foldl xor (xor false b) = _
  rw [foldl_xor, Bool.false_xor]

theorem parity_flipBit {bits : List Bool} {i : Nat} (h : i < bits.length) : parity (flipBit bits i) = !parity bits := by
  induction bits generalizing i with
  | nil => cases h
  | cons b bits ih =>
    cases i with
    | zero =>
      change parity (not b :: bits) = _
      rw [parity_cons, parity_cons, Bool.not_xor]
    | succ i =>
      change parity (b :: flipBit bits i) = _
      rw [parity_cons, parity_cons, ih (Nat.lt_of_succ_lt_succ h), Bool.xor_not]

/-- The exclusive-or of the places of the bits that are set. -/
def placesXor (places : List Nat) (bits : List Bool) : Nat :=
  (places.zip bits).foldl (fun acc pb => if pb.2 then acc ^^^ pb.1 else acc) 0

theorem foldl_places (pbs : List (Nat × Bool)) (acc x : Nat) :
    pbs.foldl (fun acc pb => if pb.2 then acc ^^^ pb.1 else acc) (acc ^^^ x) =
      pbs.foldl (fun acc pb => if pb.2 then acc ^^^ pb.1 else acc) acc ^^^ x := by
  induction pbs generalizing acc with
  | nil => rfl
  | cons pb pbs ih =>
    rw [List.foldl_cons, List.foldl_cons]
    cases pb.2 with
    | true => rw [if_pos rfl, if_pos rfl, Nat.xor_right_comm, ih]
    | false => rw [if_neg Bool.false_ne_true, if_neg Bool.false_ne_true, ih]

theorem placesXor_cons (p : Nat) (ps : List Nat) (b : Bool) (bits : List Bool) :
    placesXor (p :: ps) (b :: bits) = placesXor ps bits ^^^ if b then p else 0 := by
  unfold placesXor
  rw [List.zip_cons_cons, List.foldl_cons]
  cases b with
  | true => exact foldl_places _ 0 p
  | false => exact (Nat.xor_zero _).symm

theorem placesXor_flipBit {places : List Nat} {bits : List Bool} (h : places.length = bits.length) {i : Nat} (hi : i < bits.length) :
    placesXor places (flipBit bits i) = placesXor places bits ^^^ places.getD i 0 := by
  induction bits generalizing places i with
  | nil => cases hi
  | cons b bits ih =>
    cases places with
    | nil => cases h
    | cons p ps =>
      cases i with
      | zero =>
        change placesXor (p :: ps) (not b :: bits) = _ ^^^ p
        rw [placesXor_cons, placesXor_cons]
        cases b with
        | true => rw [if_pos rfl, Nat.xor_assoc, Nat.xor_self]; rfl
        | false => rw [if_neg Bool.false_ne_true, Nat.xor_zero]; rfl
      | succ i =>
        change placesXor (p :: ps) (b :: flipBit bits i) = _ ^^^ ps.getD i 0
        rw [placesXor_cons, placesXor_cons, ih (Nat.succ.inj h) (Nat.lt_of_succ_lt_succ hi), Nat.xor_right_comm]

theorem checkBits_eq (bits : List Bool) : checkBits bits = placesXor (dataPositions bits.length) bits := rfl

theorem placesXor_lt {places : List Nat} (h : ∀ p ∈ places, p < 128) (bits : List Bool) : placesXor places bits < 128 := by
  induction places generalizing bits with
  | nil => exact Nat.zero_lt_succ _
  | cons p ps ih =>
    cases bits with
    | nil => exact Nat.zero_lt_succ _
    | cons b bits =>
      rw [placesXor_cons]
      have hp : (if b then p else 0) < 2 ^ 7 := by
        split
        · exact h p (by simp)
        · decide
      exact Nat.xor_lt_two_pow (n := 7) (ih (fun q hq => h q (by simp [hq])) bits) hp

/-! ### The places of a codeword (R187) -/

/-- The syndrome that each inverted bit of a block of `n` data bytes makes: its place for a data bit, none for the overall parity,
and the check bits' own powers of two. -/
def blockPlaces (n : Nat) : List Nat := dataPositions (8 * n) ++ [0, 64, 32, 16, 8, 4, 2, 1]

/-- What the decoding table needs of the places, for the two block sizes (R187). -/
structure PlacesSound (n : Nat) : Prop where
  count : (dataPositions (8 * n)).length = 8 * n
  distinct : (blockPlaces n).Nodup
  data : ∀ p ∈ dataPositions (8 * n), p < 128 ∧ isCheckPosition p = false ∧ p < 8 * n + 8

theorem placesSound_8 : PlacesSound 8 := ⟨by decide, by decide, by decide⟩

theorem placesSound_10 : PlacesSound 10 := ⟨by decide, by decide, by decide⟩

/-! ### Syndrome and parity of a received block -/

/-- The syndrome of a received block: what its check bits and those of its data bytes differ in (R187). -/
def blockSyndrome (n : Nat) (block : Block) : Nat := checkBits (keyingBits (block.take n)) ^^^ ((block.getD n 0).toNat % 128)

/-- Whether the overall parity of a received block is odd (R187). -/
def blockOdd (n : Nat) (block : Block) : Bool := xor (parity (keyingBits (block.take n))) (parity (byteBits (block.getD n 0)))

theorem decodeBlock_eq {n : Nat} {block : Block} (h : block.length = n + 1) : decodeBlock n block =
    if blockSyndrome n block = 0 then some ⟨block.take n, blockOdd n block⟩
    else if blockOdd n block then
      if isCheckPosition (blockSyndrome n block) then some ⟨block.take n, true⟩
      else if blockSyndrome n block < 8 * n + 8 then
        some ⟨bytesOfBits n (flipBit (keyingBits (block.take n)) ((dataPositions (8 * n)).idxOf (blockSyndrome n block))), true⟩
      else none
    else none := by
  have hodd : (!xor (parity (keyingBits (block.take n))) (parity (byteBits (block.getD n 0)))) = !blockOdd n block := rfl
  have hsyndrome : checkBits (keyingBits (block.take n)) ^^^ ((block.getD n 0).toNat % 128) = blockSyndrome n block := rfl
  unfold decodeBlock
  rw [if_pos h]
  simp only [hodd, hsyndrome, Bool.not_not]
  cases blockOdd n block with
  | true => simp only [Bool.not_true, Bool.false_eq_true, if_false, if_true]
  | false => simp only [Bool.not_false, if_true, Bool.false_eq_true, if_false]

theorem plantError_length (block : Block) (i : Nat) : (plantError block i).length = block.length := List.length_modify ..

theorem plantError_data {data : List Byte} {n i : Nat} (hdata : data.length = n) (hi : i < 8 * n) (check : Byte) :
    plantError (data ++ [check]) i = data.modify (i / 8) (fun b => invertBit b (i % 8)) ++ [check] :=
  modify_append_left (by omega) _

theorem plantError_check {data : List Byte} {n i : Nat} (hdata : data.length = n) (check : Byte) (hi : i < 8) :
    plantError (data ++ [check]) (8 * n + i) = data ++ [invertBit check i] := by
  have hplace : (8 * n + i) / 8 = data.length + 0 ∧ (8 * n + i) % 8 = i := by omega
  rw [plantError, hplace.1, hplace.2, modify_append_right]
  rfl

/-- Inverting bit `k` of a check byte changes the check bits by that bit's power of two, the overall parity bit aside (R187). -/
theorem invertBit_check (check : Byte) {k : Nat} (hk : k < 8) :
    (invertBit check k).toNat % 128 = check.toNat % 128 ^^^ [0, 64, 32, 16, 8, 4, 2, 1].getD k 0 := by
  rw [invertBit, BitVec.toNat_xor]
  have hmod := Nat.xor_mod_two_pow (a := check.toNat) (b := (0x80#8 >>> k).toNat) (n := 7)
  rw [show (2 : Nat) ^ 7 = 128 from rfl] at hmod
  rw [hmod]
  interval_cases k <;> rfl

theorem keyingBits_append (xs ys : List Byte) : keyingBits (xs ++ ys) = keyingBits xs ++ keyingBits ys := List.flatMap_append ..

section received

variable {n i j : Nat} {data : List Byte} {check : Byte} {block : Block}

theorem blockSyndrome_append (hdata : data.length = n) :
    blockSyndrome n (data ++ [check]) = checkBits (keyingBits data) ^^^ (check.toNat % 128) := by
  have hcheck : (data ++ [check]).getD n 0 = check := by simp [List.getD_eq_getElem?_getD, ← hdata]
  rw [blockSyndrome, List.take_left' hdata, hcheck]

theorem blockOdd_append (hdata : data.length = n) :
    blockOdd n (data ++ [check]) = xor (parity (keyingBits data)) (parity (byteBits check)) := by
  have hcheck : (data ++ [check]).getD n 0 = check := by simp [List.getD_eq_getElem?_getD, ← hdata]
  rw [blockOdd, List.take_left' hdata, hcheck]

/-- A block is its data bytes and its check byte. -/
theorem block_eq_append (h : block.length = n + 1) : ∃ data check, data.length = n ∧ block = data ++ [check] := by
  refine ⟨block.take n, block.getD n 0, by rw [List.length_take]; omega, ?_⟩
  have hlast : block.drop n = [block.getD n 0] := by
    rw [List.drop_eq_getElem_cons (by omega), List.drop_eq_nil_of_le (by omega)]
    simp [List.getD_eq_getElem?_getD, h]
  rw [← hlast, List.take_append_drop]

/-- An inverted bit adds its place to the syndrome (R187). -/
theorem blockSyndrome_plantError (hplaces : PlacesSound n) (h : block.length = n + 1) (hi : i < 8 * n + 8) :
    blockSyndrome n (plantError block i) = blockSyndrome n block ^^^ (blockPlaces n).getD i 0 := by
  obtain ⟨data, check, hdata, rfl⟩ := block_eq_append h
  by_cases hbit : i < 8 * n
  · have hmodified : (data.modify (i / 8) fun b => invertBit b (i % 8)).length = n := by rw [List.length_modify, hdata]
    have hlength : (keyingBits data).length = 8 * n := by rw [keyingBits_length, hdata]
    have hplace : (blockPlaces n).getD i 0 = (dataPositions (8 * n)).getD i 0 := by
      rw [blockPlaces, List.getD_append _ _ _ _ (by rw [hplaces.count]; exact hbit)]
    have hflipped : (flipBit (keyingBits data) i).length = 8 * n := by rw [flipBit, List.length_modify, hlength]
    rw [plantError_data hdata hbit, blockSyndrome_append hmodified, blockSyndrome_append hdata,
      keyingBits_modify (by rw [hdata]; exact hbit), checkBits_eq, checkBits_eq, hflipped, hlength,
      placesXor_flipBit (by rw [hplaces.count, hlength]) (by rw [hlength]; exact hbit), hplace, Nat.xor_right_comm]
  · obtain ⟨k, rfl⟩ := Nat.exists_eq_add_of_le (Nat.not_lt.1 hbit)
    have hk : k < 8 := by omega
    have hplace : (blockPlaces n).getD (8 * n + k) 0 = [0, 64, 32, 16, 8, 4, 2, 1].getD k 0 := by
      rw [blockPlaces, List.getD_append_right _ _ _ _ (by rw [hplaces.count]; omega), hplaces.count, Nat.add_sub_cancel_left]
    rw [plantError_check hdata check hk, blockSyndrome_append hdata, blockSyndrome_append hdata, invertBit_check check hk, hplace,
      Nat.xor_assoc]

/-- An inverted bit changes the overall parity (R187). -/
theorem blockOdd_plantError (h : block.length = n + 1) (hi : i < 8 * n + 8) : blockOdd n (plantError block i) = !blockOdd n block := by
  obtain ⟨data, check, hdata, rfl⟩ := block_eq_append h
  by_cases hbit : i < 8 * n
  · have hmodified : (data.modify (i / 8) fun b => invertBit b (i % 8)).length = n := by rw [List.length_modify, hdata]
    rw [plantError_data hdata hbit, blockOdd_append hmodified, blockOdd_append hdata, keyingBits_modify (by rw [hdata]; exact hbit),
      parity_flipBit (by rw [keyingBits_length, hdata]; exact hbit), Bool.not_xor]
  · obtain ⟨k, rfl⟩ := Nat.exists_eq_add_of_le (Nat.not_lt.1 hbit)
    have hk : k < 8 := by omega
    rw [plantError_check hdata check hk, blockOdd_append hdata, blockOdd_append hdata, byteBits_invertBit check hk,
      parity_flipBit (by rw [byteBits_length]; exact hk), Bool.xor_not]

/-! ### The block code's table (R187) -/

theorem checkByte_facts (p : Bool) (c : Nat) (hc : c < 128) : (BitVec.ofNat 8 (bitNat p * 128 + c)).toNat % 128 = c ∧
    parity (byteBits (BitVec.ofNat 8 (bitNat p * 128 + c))) = xor p (parity (byteBits (BitVec.ofNat 8 c))) := by
  cases p with
  | false =>
    have hc' : bitNat false * 128 + c = c := Nat.zero_add c
    rw [hc', Bool.false_xor, BitVec.toNat_ofNat]
    exact ⟨by omega, rfl⟩
  | true =>
    have hall : ∀ c : Fin 128, BitVec.ofNat 8 (128 + c) = invertBit (BitVec.ofNat 8 c) 0 := by decide
    have hinverted : BitVec.ofNat 8 (bitNat true * 128 + c) = invertBit (BitVec.ofNat 8 c) 0 := hall ⟨c, hc⟩
    constructor
    · rw [BitVec.toNat_ofNat, show bitNat true = 1 from rfl]
      omega
    · rw [hinverted, byteBits_invertBit _ (by decide), parity_flipBit (by rw [byteBits_length]; decide), Bool.true_xor]

theorem encodeBlock_length (data : List Byte) : (encodeBlock data).length = data.length + 1 := by simp [encodeBlock]

/-- A block as encoded has syndrome 0 and even parity (R187). -/
theorem encodeBlock_sound (hplaces : PlacesSound n) (hdata : data.length = n) :
    blockSyndrome n (encodeBlock data) = 0 ∧ blockOdd n (encodeBlock data) = false := by
  have hlength : (keyingBits data).length = 8 * n := by rw [keyingBits_length, hdata]
  have hcheck : checkBits (keyingBits data) < 128 := by
    rw [checkBits_eq, hlength]
    exact placesXor_lt (fun p hp => (hplaces.data p hp).1) _
  obtain ⟨hlow, hparity⟩ := checkByte_facts (xor (parity (keyingBits data)) (parity (byteBits (BitVec.ofNat 8 (checkBits (keyingBits data))))))
    _ hcheck
  constructor
  · rw [encodeBlock, blockSyndrome_append hdata, checkByte]
    rw [hlow, Nat.xor_self]
  · rw [encodeBlock, blockOdd_append hdata, checkByte]
    rw [hparity]
    generalize parity (keyingBits data) = p
    generalize parity (byteBits (BitVec.ofNat 8 (checkBits (keyingBits data)))) = q
    cases p <;> cases q <;> rfl

theorem blockPlaces_length (hplaces : PlacesSound n) : (blockPlaces n).length = 8 * n + 8 := by
  rw [blockPlaces, List.length_append, hplaces.count]
  rfl

theorem flipBit_twice (bits : List Bool) (i : Nat) : flipBit (flipBit bits i) i = bits := by
  rw [flipBit, flipBit, List.modify_modify_eq]
  have hid : (not ∘ not) = id := by
    funext b
    exact Bool.not_not b
  rw [hid, List.modify_id]

end received

end Sys2Proof.Machine
end

section
/-!
The block code decoded (R113, R187): none, one and two inverted bits.
-/

namespace Sys2Proof.Machine

variable {n i j : Nat} {data : List Byte} {block : Block}

/-- Two places of a codeword differ (R187). -/
theorem blockPlaces_inj (hplaces : PlacesSound n) (hi : i < 8 * n + 8) (hj : j < 8 * n + 8)
    (h : (blockPlaces n).getD i 0 = (blockPlaces n).getD j 0) : i = j := by
  have hin : i < (blockPlaces n).length := by rwa [blockPlaces_length hplaces]
  have hjn : j < (blockPlaces n).length := by rwa [blockPlaces_length hplaces]
  rw [List.getD_eq_getElem _ _ hin, List.getD_eq_getElem _ _ hjn] at h
  exact (hplaces.distinct.getElem_inj_iff).1 h

theorem blockPlaces_data (hplaces : PlacesSound n) (hi : i < 8 * n) :
    ∃ h : i < (dataPositions (8 * n)).length, (blockPlaces n).getD i 0 = (dataPositions (8 * n))[i] := by
  have h : i < (dataPositions (8 * n)).length := by rwa [hplaces.count]
  exact ⟨h, by rw [blockPlaces, List.getD_append _ _ _ _ h, List.getD_eq_getElem _ _ h]⟩

theorem blockPlaces_check (hplaces : PlacesSound n) (k : Nat) :
    (blockPlaces n).getD (8 * n + k) 0 = [0, 64, 32, 16, 8, 4, 2, 1].getD k 0 := by
  rw [blockPlaces, List.getD_append_right _ _ _ _ (by rw [hplaces.count]; omega), hplaces.count, Nat.add_sub_cancel_left]

theorem checkPlaces_cases {k : Nat} (hk : k < 8) : [0, 64, 32, 16, 8, 4, 2, 1].getD k 0 = 0 ∨
    isCheckPosition ([0, 64, 32, 16, 8, 4, 2, 1].getD k 0) = true := by
  revert k
  decide

section decoded

variable (hplaces : PlacesSound n) (hdata : data.length = n)

include hplaces hdata

theorem decodeBlock_encodeBlock : decodeBlock n (encodeBlock data) = some ⟨data, false⟩ := by
  obtain ⟨hsyndrome, hodd⟩ := encodeBlock_sound hplaces hdata
  rw [decodeBlock_eq (by rw [encodeBlock_length, hdata]), if_pos hsyndrome, hodd, encodeBlock, List.take_left' hdata]

/-- One inverted bit is corrected (R113). -/
theorem decodeBlock_one (hi : i < 8 * n + 8) : decodeBlock n (plantError (encodeBlock data) i) = some ⟨data, true⟩ := by
  obtain ⟨hsyndrome, hodd⟩ := encodeBlock_sound hplaces hdata
  have hlength : (encodeBlock data).length = n + 1 := by rw [encodeBlock_length, hdata]
  have hsyndrome' : blockSyndrome n (plantError (encodeBlock data) i) = (blockPlaces n).getD i 0 := by
    rw [blockSyndrome_plantError hplaces hlength hi, hsyndrome, Nat.zero_xor]
  have hodd' : blockOdd n (plantError (encodeBlock data) i) = true := by rw [blockOdd_plantError hlength hi, hodd, Bool.not_false]
  rw [decodeBlock_eq (by rw [plantError_length, hlength]), hsyndrome', hodd', if_pos rfl]
  by_cases hbit : i < 8 * n
  · obtain ⟨hin, hplace⟩ := blockPlaces_data hplaces hbit
    have hzero : (blockPlaces n).getD i 0 ≠ 0 := fun h =>
      absurd (blockPlaces_inj (j := 8 * n) hplaces hi (by omega) (h.trans (blockPlaces_check hplaces 0).symm)) (by omega)
    obtain ⟨-, hcheck, hlow⟩ := hplaces.data _ (List.getElem_mem hin)
    have hindex : (dataPositions (8 * n)).idxOf (dataPositions (8 * n))[i] = i :=
      (List.Nodup.of_append_left hplaces.distinct).idxOf_getElem i hin
    have hmodified : (data.modify (i / 8) fun b => invertBit b (i % 8)).length = n := by rw [List.length_modify, hdata]
    rw [if_neg hzero, hplace, if_neg (by rw [hcheck]; exact Bool.false_ne_true), if_pos hlow, hindex, encodeBlock,
      plantError_data hdata hbit, List.take_left' hmodified, keyingBits_modify (by rw [hdata]; exact hbit), flipBit_twice, ← hdata,
      bytesOfBits_keyingBits]
  · obtain ⟨k, rfl⟩ := Nat.exists_eq_add_of_le (Nat.not_lt.1 hbit)
    have hk : k < 8 := by omega
    rw [blockPlaces_check hplaces, encodeBlock, plantError_check hdata _ hk, List.take_left' hdata]
    rcases checkPlaces_cases hk with h | h
    · rw [if_pos h]
    · rw [if_pos h, ite_self]

/-- Two inverted bits are detected (R113). -/
theorem decodeBlock_two (hi : i < 8 * n + 8) (hj : j < 8 * n + 8) (hne : i ≠ j) :
    decodeBlock n (plantError (plantError (encodeBlock data) i) j) = none := by
  obtain ⟨hsyndrome, hodd⟩ := encodeBlock_sound hplaces hdata
  have hlength : (encodeBlock data).length = n + 1 := by rw [encodeBlock_length, hdata]
  have hlength' : (plantError (encodeBlock data) i).length = n + 1 := by rw [plantError_length, hlength]
  have hsyndrome' : blockSyndrome n (plantError (plantError (encodeBlock data) i) j) ≠ 0 := by
    rw [blockSyndrome_plantError hplaces hlength' hj, blockSyndrome_plantError hplaces hlength hi, hsyndrome, Nat.zero_xor, ne_eq,
      Nat.xor_eq_zero_iff]
    exact fun h => hne (blockPlaces_inj hplaces hi hj h)
  have hodd' : blockOdd n (plantError (plantError (encodeBlock data) i) j) = false := by
    rw [blockOdd_plantError hlength' hj, blockOdd_plantError hlength hi, hodd]
    rfl
  rw [decodeBlock_eq (by rw [plantError_length, hlength']), if_neg hsyndrome', hodd', if_neg Bool.false_ne_true]

end decoded

end Sys2Proof.Machine
end

section
/-!
Field frames (R112, R115, R187): the blocks of a payload, received whole, or refused for a block, the CRC-16 or the block count.
-/

namespace Sys2Proof.Machine

variable {n i : Nat} {blocks : List Block} {parts : List (List Byte)} {payload bs crc : List Byte}

/-! ### The payload of received blocks (R115) -/

/-- The data bytes of block `i` of a frame that states `n` (R187). -/
def blockSize (n i : Nat) : Nat := if i + 1 = n then 10 else 8

theorem decodeBlocks_take (h : n ≤ blocks.length) : decodeBlocks n (blocks.take n) =
    (List.range n).map fun i => decodeBlock (blockSize n i) (blocks.getD i []) := by
  refine List.ext_getElem ?_ fun i hi hj => ?_
  · rw [decodeBlocks_length, List.length_take, List.length_map, List.length_range, Nat.min_eq_left h]
  · have hin : i < blocks.length := by
      rw [List.length_map, List.length_range] at hj
      omega
    simp only [decodeBlocks, List.getElem_mapIdx, List.getElem_take, List.getElem_map, List.getElem_range, blockSize,
      List.getD_eq_getElem _ _ hin]

theorem map_getD_range (h : parts.length = n) : (List.range n).map (fun i => parts.getD i []) = parts := by
  refine List.ext_getElem (by simp [h]) fun i hi hj => ?_
  rw [List.getElem_map, List.getElem_range, List.getD_eq_getElem _ _ hj]

/-- Blocks that decode to `parts` have their bytes; the payload is good when the CRC-16 matches (R115). -/
theorem goodPayload_parts (hparts : parts.length = n) (hblocks : n ≤ blocks.length)
    (h : ∀ i < n, (decodeBlock (blockSize n i) (blocks.getD i [])).map Decoded.data = some (parts.getD i [])) :
    goodPayload n (decodeBlocks n (blocks.take n)) =
      if parts.flatten.drop (8 * n) = beBytes 2 (crc16 (parts.flatten.take (8 * n))).toNat then some (parts.flatten.take (8 * n))
      else none := by
  have hlength : (decodeBlocks n (blocks.take n)).length = n := by
    rw [decodeBlocks_length, List.length_take, Nat.min_eq_left hblocks]
  have hbytes : ((decodeBlocks n (blocks.take n)).flatMap fun d => (d.map Decoded.data).getD []) = parts.flatten := by
    conv => rhs; rw [← map_getD_range hparts]
    rw [decodeBlocks_take hblocks, List.flatMap_map, List.flatMap_def]
    refine congrArg List.flatten (List.map_congr_left fun i hi => ?_)
    rw [h i (List.mem_range.1 hi), Option.getD_some]
  have hall : (decodeBlocks n (blocks.take n)).all Option.isSome = true := by
    rw [decodeBlocks_take hblocks, List.all_eq_true]
    intro d hd
    obtain ⟨i, hi, rfl⟩ := List.mem_map.1 hd
    rw [← Option.isSome_map (f := Decoded.data), h i (List.mem_range.1 hi)]
    rfl
  simp only [goodPayload, hlength, hall, hbytes, and_self, if_true]

theorem goodPayload_undecoded (hblocks : n ≤ blocks.length) (hi : i < n)
    (h : decodeBlock (blockSize n i) (blocks.getD i []) = none) : goodPayload n (decodeBlocks n (blocks.take n)) = none := by
  refine if_neg fun ⟨_, hall⟩ => ?_
  rw [decodeBlocks_take hblocks, List.all_eq_true] at hall
  have hsome := hall _ (List.mem_map.2 ⟨i, List.mem_range.2 hi, rfl⟩)
  rw [h] at hsome
  cases hsome

/-- Whether the block count is that of the frame's kind, for ABILITY of its page (R187). -/
def UpKind.due (kind : UpKind) (n : Nat) (payload : List Byte) : Prop :=
  match kind with
  | .call => n = 1
  | .report => n = 2
  | .confirm => n = 3
  | .echo => n = 4
  | .ability => byteAt payload 0 = 1 ∧ n = 3 ∨ byteAt payload 0 = 2 ∧ n = 1

theorem due_iff (kind : UpKind) (n : Nat) (payload : List Byte) :
    kind.due n payload ↔ (kind.blocks (byteAt payload 0) == some n) = true := by
  rw [beq_iff_eq]
  cases kind with
  | ability =>
    simp only [UpKind.due, UpKind.blocks]
    by_cases hfirst : byteAt payload 0 = 1
    · simp [hfirst, eq_comm]
    · by_cases hsecond : byteAt payload 0 = 2
      · simp [hsecond, eq_comm]
      · simp [hfirst, hsecond]
  | call => simp [UpKind.due, UpKind.blocks, eq_comm]
  | report => simp [UpKind.due, UpKind.blocks, eq_comm]
  | confirm => simp [UpKind.due, UpKind.blocks, eq_comm]
  | echo => simp [UpKind.due, UpKind.blocks, eq_comm]

theorem due_range {kind : UpKind} (h : kind.due n payload) : 1 ≤ n ∧ n ≤ 4 := by
  cases kind <;> simp only [UpKind.due] at h <;> omega

theorem arrival_payload (r : FieldReception) (blocks : List Block) (first : Bool) : (r.arrival blocks first).payload =
    (goodPayload r.blockCount (decodeBlocks r.blockCount (blocks.take r.blockCount))).filter fun p =>
      r.kind.blocks (byteAt p 0) == some r.blockCount := rfl

theorem filter_due {kind : UpKind} (h : kind.due n payload) :
    (some payload).filter (fun p => kind.blocks (byteAt p 0) == some n) = some payload := by
  rw [Option.filter_some, if_pos ((due_iff kind n payload).1 h)]

theorem filter_not_due {kind : UpKind} (h : ¬ kind.due n payload) :
    (some payload).filter (fun p => kind.blocks (byteAt p 0) == some n) = none := by
  rw [Option.filter_some, if_neg (mt (due_iff kind n payload).2 h)]

/-! ### The blocks of a payload (R112, R187) -/

theorem chunks8_length (n : Nat) (bs : List Byte) : (chunks8 n bs).length = n := by
  induction n generalizing bs with
  | zero => rfl
  | succ n ih => exact congrArg Nat.succ (ih _)

theorem chunks8_part_length (h : 8 * n ≤ bs.length) {c : List Byte} (hc : c ∈ chunks8 n bs) : c.length = 8 := by
  induction n generalizing bs with
  | zero => cases hc
  | succ n ih =>
    rcases List.mem_cons.1 hc with rfl | hc
    · rw [List.length_take]
      omega
    · exact ih (by rw [List.length_drop]; omega) hc

/-- The parts that the blocks of a payload carry: groups of 8 bytes, the last with the CRC-16 (R187). -/
def frameParts (n : Nat) (bs crc : List Byte) : List (List Byte) :=
  (chunks8 n bs).mapIdx fun i c => if i + 1 = n then c ++ crc else c

theorem frameParts_length (n : Nat) (bs crc : List Byte) : (frameParts n bs crc).length = n := by
  rw [frameParts, List.length_mapIdx, chunks8_length]

theorem frameParts_flatten (m : Nat) (bs crc : List Byte) : (frameParts (m + 1) bs crc).flatten = bs.take (8 * (m + 1)) ++ crc := by
  induction m generalizing bs with
  | zero => simp [frameParts, chunks8]
  | succ m ih =>
    have htail : frameParts (m + 2) bs crc = bs.take 8 :: frameParts (m + 1) (bs.drop 8) crc := by
      rw [frameParts, chunks8, List.mapIdx_cons, if_neg (by omega)]
      simp only [frameParts, Nat.add_right_cancel_iff]
    have hlength : 8 * (m + 2) = 8 + 8 * (m + 1) := by omega
    rw [htail, List.flatten_cons, ih, ← List.append_assoc, hlength, List.take_add]

theorem frameParts_part_length (hbs : 8 * n ≤ bs.length) (hcrc : crc.length = 2) (hi : i < n) :
    ((frameParts n bs crc).getD i []).length = blockSize n i := by
  have hin : i < (chunks8 n bs).length := by rwa [chunks8_length]
  have hchunk := chunks8_part_length hbs (List.getElem_mem hin)
  rw [List.getD_eq_getElem _ _ (by rwa [frameParts_length])]
  simp only [frameParts, blockSize, List.getElem_mapIdx]
  split
  · rw [List.length_append, hchunk, hcrc]
  · exact hchunk

theorem padBlocks_whole (h : payload.length = 8 * n) (hn : n ≤ 4) : padBlocks payload = payload := by
  have htake : payload.take 32 = payload := List.take_of_length_le (by omega)
  have hpad : (8 - payload.length % 8) % 8 = 0 := by omega
  simp only [padBlocks, htake, hpad, List.replicate_zero, List.append_nil]

theorem payloadBlocks_eq (h : payload.length = 8 * n) (hn : n ≤ 4) :
    payloadBlocks payload = (frameParts n payload (beBytes 2 (crc16 payload).toNat)).map encodeBlock := by
  have hcount : payload.length / 8 = n := by omega
  simp only [payloadBlocks, padBlocks_whole h hn, hcount, frameParts]
  refine List.ext_getElem (by simp) fun i hi hj => ?_
  rw [List.getElem_map, List.getElem_mapIdx, List.getElem_mapIdx]

/-! ### A payload received with its blocks' errors corrected (R113, R115) -/

theorem placesSound_blockSize (n i : Nat) : PlacesSound (blockSize n i) := by
  unfold blockSize
  split
  · exact placesSound_10
  · exact placesSound_8

/-- The blocks of a payload as received, one bit of each inverted or none. -/
def receivedBlocks (payload : List Byte) (inverted : Nat → Option Nat) : List Block :=
  (payloadBlocks payload).mapIdx fun i block => match inverted i with
    | some bit => plantError block bit
    | none => block

section receivedPayload

variable {inverted : Nat → Option Nat} (hlength : payload.length = 8 * n) (hn : n ≤ 4)

include hlength hn

theorem receivedBlocks_length : (receivedBlocks payload inverted).length = n := by
  rw [receivedBlocks, List.length_mapIdx, payloadBlocks_eq hlength hn, List.length_map, frameParts_length]

theorem decodeBlock_received (hinverted : ∀ i bit, inverted i = some bit → bit < 8 * blockSize n i + 8) (hi : i < n) :
    decodeBlock (blockSize n i) ((receivedBlocks payload inverted).getD i []) =
      some ⟨(frameParts n payload (beBytes 2 (crc16 payload).toNat)).getD i [], (inverted i).isSome⟩ := by
  have hpart := frameParts_part_length (crc := beBytes 2 (crc16 payload).toNat) hlength.ge rfl hi
  have hin : i < (frameParts n payload (beBytes 2 (crc16 payload).toNat)).length := by rwa [frameParts_length]
  have hreceived : (receivedBlocks payload inverted).getD i [] = match inverted i with
      | some bit => plantError (encodeBlock ((frameParts n payload (beBytes 2 (crc16 payload).toNat)).getD i [])) bit
      | none => encodeBlock ((frameParts n payload (beBytes 2 (crc16 payload).toNat)).getD i []) := by
    rw [List.getD_eq_getElem _ _ (by rwa [receivedBlocks_length hlength hn]), List.getD_eq_getElem _ _ hin]
    simp only [receivedBlocks, List.getElem_mapIdx, payloadBlocks_eq hlength hn, List.getElem_map]
  rw [hreceived]
  cases hbit : inverted i with
  | none => exact decodeBlock_encodeBlock (placesSound_blockSize n i) hpart
  | some bit => exact decodeBlock_one (placesSound_blockSize n i) hpart (hinverted i bit hbit)

/-- A payload whose length is its kind's is received whole, each corrected block counted (R113, R115, R154). -/
theorem arrival_received (hinverted : ∀ i bit, inverted i = some bit → bit < 8 * blockSize n i + 8) {r : FieldReception}
    (hcount : r.blockCount = n) (hdue : r.kind.due n payload) (first : Bool) : r.arrival (receivedBlocks payload inverted) first =
      { kind := r.kind, address := r.address, payload := some payload, first := first, flags := r.flags
        corrected := (if r.corrected then 1 else 0) + ((List.range n).filter fun i => (inverted i).isSome).length } := by
  subst hcount
  obtain ⟨m, hm⟩ := Nat.exists_eq_add_of_le' (due_range hdue).1
  have hreceived : (receivedBlocks payload inverted).length = r.blockCount := receivedBlocks_length hlength hn
  have hdecoded (i : Nat) (hi : i < r.blockCount) := decodeBlock_received hlength hn hinverted hi
  have hflatten : (frameParts r.blockCount payload (beBytes 2 (crc16 payload).toNat)).flatten =
      payload ++ beBytes 2 (crc16 payload).toNat := by
    rw [hm, frameParts_flatten, List.take_of_length_le (by omega)]
  have hpayload : (r.arrival (receivedBlocks payload inverted) first).payload = some payload := by
    rw [arrival_payload, goodPayload_parts (frameParts_length r.blockCount payload _) hreceived.ge
      fun i hi => by rw [hdecoded i hi, Option.map_some], hflatten, List.take_left' hlength, List.drop_left' hlength, if_pos rfl,
      filter_due hdue]
  have hcorrected : (r.arrival (receivedBlocks payload inverted) first).corrected =
      (if r.corrected then 1 else 0) + ((List.range r.blockCount).filter fun i => (inverted i).isSome).length := by
    have hblocks : ((decodeBlocks r.blockCount ((receivedBlocks payload inverted).take r.blockCount)).countP fun d =>
        (d.map Decoded.corrected).getD false) = ((List.range r.blockCount).filter fun i => (inverted i).isSome).length := by
      rw [decodeBlocks_take hreceived.ge, List.countP_map, ← List.countP_eq_length_filter]
      refine List.countP_congr fun i hi => ?_
      rw [Function.comp_apply, hdecoded i (List.mem_range.1 hi)]
      rfl
    exact congrArg (bitNat r.corrected + ·) hblocks
  calc r.arrival (receivedBlocks payload inverted) first
      = { kind := r.kind, address := r.address, payload := (r.arrival (receivedBlocks payload inverted) first).payload
          corrected := (r.arrival (receivedBlocks payload inverted) first).corrected, first := first, flags := r.flags } := rfl
    _ = _ := by rw [hpayload, hcorrected]

end receivedPayload

/-- Settles O60: the code by the syndrome and the parity of what was received, the frame by the bytes its blocks decode to. -/
theorem fieldBlocksAndFramesDecode : Obligations.FieldBlocksAndFramesDecode := by
  refine ⟨fun data hlength => ?_, fun r first => ?_⟩
  · intro n
    have hplaces : PlacesSound n := by
      change PlacesSound data.length
      rcases hlength with h | h
      · rw [h]
        exact placesSound_8
      · rw [h]
        exact placesSound_10
    exact ⟨decodeBlock_encodeBlock hplaces rfl, fun i hi => decodeBlock_one hplaces rfl hi,
      fun i hi j hj hne => decodeBlock_two hplaces rfl hi hj hne⟩
  · intro n size due
    have hdue (payload : List Byte) : due payload ↔ r.kind.due n payload := by
      cases hkind : r.kind <;> simp only [due, UpKind.due, hkind]
    refine ⟨fun payload hlength hd inverted hinverted => ?_, fun blocks => ?_⟩
    · have hd' := (hdue payload).1 hd
      exact arrival_received hlength (due_range hd').2 hinverted rfl hd' first
    · intro payload
      refine ⟨fun hshort => arrival_short hshort first, fun i hi hnone => ?_, fun parts hparts hblocks hdecoded => ?_⟩
      · by_cases hblocks : n ≤ blocks.length
        · change (r.arrival blocks first).payload = none
          rw [arrival_payload, goodPayload_undecoded hblocks hi hnone]
          rfl
        · exact arrival_short (Nat.not_le.1 hblocks) first
      · intro bytes crc
        have hpayload : payload = (if crc = beBytes 2 (crc16 bytes).toNat then some bytes else none).filter fun p =>
            r.kind.blocks (byteAt p 0) == some n := by
          change (r.arrival blocks first).payload = _
          rw [arrival_payload, goodPayload_parts hparts hblocks hdecoded]
        refine ⟨fun hcrc => ?_, fun hnot => ?_, fun hcrc hd => ?_⟩
        · rw [hpayload, if_neg hcrc]
          rfl
        · rw [hpayload]
          split
          · exact filter_not_due (mt (hdue bytes).2 hnot)
          · rfl
        · rw [hpayload, if_pos hcrc]
          exact filter_due ((hdue bytes).1 hd)

end Sys2Proof.Machine
end
